-- ==== Sys2Proof/Word.lean ====
section
/-! DEFINITION. The word types of GXC and their plainest reading (spec/00_scope.md R10, R11). -/

namespace Sys2Proof

/-- A command word, 128 bits (30_encoding.md R70). -/
abbrev Word := BitVec 128

/-- A 16-bit pin mask or register: bit `p` is pin `p` (00_scope.md R10). -/
abbrev Mask16 := BitVec 16

/-- A byte: a port half, a register number of the chip, or a data byte (20_memory.md R51). -/
abbrev Byte := BitVec 8

/-- `lo(v) = v[7:0]` (00_scope.md R11). -/
def lo (v : Mask16) : Byte := v.extractLsb' 0 8

/-- `hi(v) = v[15:8]` (00_scope.md R11). -/
def hi (v : Mask16) : Byte := v.extractLsb' 8 8

end Sys2Proof
end

