-- ==== Sys2Proof/Config.lean ====
section
/-! DEFINITION. What an implementation of GXC fixes and the spec leaves open (spec/00_scope.md R9), and the free
value of a failed masked write (42_x16_write.md R144). An `opaque` constant has no body: no proof can see its value, so
a claim proved here holds for every value of it. -/

namespace Sys2Proof

/-- Which controller an instance is (R2, parameter `VARIANT` of R9). -/
inductive Variant where
  | x16   -- GXC16, DOC0's SixteenPinExpander
  | x8    -- GXC8, DOC0's EightPinExpander
deriving DecidableEq, Repr

/-- The value of the variant bit `V = W[123]` (30_encoding.md R70). -/
def Variant.bit : Variant → Bool
  | .x16 => false
  | .x8 => true

/-- The values of the parameter `X8_CLEANUP_CACHE` (R9, 92_eei_decisions.md D15). -/
inductive CleanupCache where
  | keep
  | setFF
deriving DecidableEq, Repr, Inhabited

/-- The parameter type `BUS_ERR` (R9, D6): what a failed bus transaction reports. The controller passes a payload
through and never inspects it, so a natural number stands for it. DESIGN CHOICE, safe: notes/assumptions/5.md. -/
structure BusErr where
  payload : Nat
deriving DecidableEq, Repr

namespace Config

/-- `X8_CLEANUP_CACHE`: OPEN in the spec (D15, 90_conflicts.md C3). Safe: notes/assumptions/6.md. -/
opaque x8CleanupCache : CleanupCache

/-- `SLAVE_BASE`: OPEN in the spec (D16), a 7-bit I2C address. Safe: notes/assumptions/7.md. -/
opaque slaveBase : BitVec 7

/-- `SLAVE_OFFSET`: 0..7 (R9). Safe: notes/assumptions/7.md. -/
opaque slaveOffset : Fin 8

/-- The free value of R144 (D13), one for each draw: whether `outputCache` holds the new value (`true`) or the old one
(`false`) after a masked write that the bus failed. Safe: notes/assumptions/8.md. -/
opaque failedWriteTakesNew : Nat → Bool

/-- The slave address `SLAVE_BASE + SLAVE_OFFSET` (R9, 20_memory.md R57). No transaction carries it: addressing is the
bus collaborator's (D16). -/
def slaveAddress : Nat := slaveBase.toNat + slaveOffset.val

end Config

end Sys2Proof
end

