-- ==== Sys2Proof/Syntax.lean ====
section
/-! DEFINITION. The commands of GXC, one constructor for each row of spec/opcode_table.json (30_encoding.md R72 to R79).
Operand fields are the manual's bit strings, exactly as wide as the encoding admits, so that every operand value is a
legal one (D4, D29, D30). -/

namespace Sys2Proof

/-- A decoded command. -/
inductive Instr where
  /-- `X16.CFG`: `FLAGS = W[95:0]`, pin `p`'s flag set in bits `6p+5 : 6p`; `APPLY = W[96]` (R73). -/
  | x16Cfg (flags : BitVec 96) (apply : Bool)
  /-- `X16.RD`: `MASK = W[15:0]` (R74). -/
  | x16Rd (mask : Mask16)
  /-- `X16.RDPIN`: `PIN = W[3:0]` (R75). -/
  | x16RdPin (pin : BitVec 4)
  /-- `X16.WR`: `MASK = W[31:16]`, `VAL = W[15:0]` (R76). -/
  | x16Wr (mask val : Mask16)
  /-- `X16.WRPIN`: `PIN = W[3:0]`, `VBIT = W[8]` (R77). -/
  | x16WrPin (pin : BitVec 4) (value : Bool)
  /-- `X8.WR`: `VAL = W[7:0]` (R78). -/
  | x8Wr (val : Byte)
  /-- `X8.WRPIN`: `PIN = W[2:0]`, `VBIT = W[8]` (R78). -/
  | x8WrPin (pin : BitVec 3) (value : Bool)
  /-- `X8.TGL`: `PIN = W[2:0]` (R78). -/
  | x8Tgl (pin : BitVec 3)
  /-- `X8.RD`: no operand (R78). -/
  | x8Rd
  /-- `X8.RDPIN`: `PIN = W[2:0]` (R78). -/
  | x8RdPin (pin : BitVec 3)
  /-- `X8.CLEANUP`: no operand (R78). -/
  | x8Cleanup
deriving DecidableEq, Repr

/-- The mnemonic of R72. -/
def Instr.mnemonic : Instr → String
  | .x16Cfg _ _ => "X16.CFG"
  | .x16Rd _ => "X16.RD"
  | .x16RdPin _ => "X16.RDPIN"
  | .x16Wr _ _ => "X16.WR"
  | .x16WrPin _ _ => "X16.WRPIN"
  | .x8Wr _ => "X8.WR"
  | .x8WrPin _ _ => "X8.WRPIN"
  | .x8Tgl _ => "X8.TGL"
  | .x8Rd => "X8.RD"
  | .x8RdPin _ => "X8.RDPIN"
  | .x8Cleanup => "X8.CLEANUP"

/-- The variant that has the command (R72, column V). -/
def Instr.variant : Instr → Variant
  | .x16Cfg _ _ => .x16
  | .x16Rd _ => .x16
  | .x16RdPin _ => .x16
  | .x16Wr _ _ => .x16
  | .x16WrPin _ _ => .x16
  | .x8Wr _ => .x8
  | .x8WrPin _ _ => .x8
  | .x8Tgl _ => .x8
  | .x8Rd => .x8
  | .x8RdPin _ => .x8
  | .x8Cleanup => .x8

/-- The opcode `OPC` (R72). -/
def Instr.opcode : Instr → BitVec 4
  | .x16Cfg _ _ => 0x1
  | .x16Rd _ => 0x2
  | .x16RdPin _ => 0x3
  | .x16Wr _ _ => 0x4
  | .x16WrPin _ _ => 0x5
  | .x8Wr _ => 0x1
  | .x8WrPin _ _ => 0x2
  | .x8Tgl _ => 0x3
  | .x8Rd => 0x4
  | .x8RdPin _ => 0x5
  | .x8Cleanup => 0x6

end Sys2Proof
end

