-- ==== Sys2Proof/WellFormed.lean ====
section
/-! DEFINITION. When a command is one that an instance of a variant has (30_encoding.md R71). Operand ranges need no check:
every field of `Instr` is exactly as wide as its encoding (R75, R77, R78, D29, D30), and every flag pattern is legal (R73). -/

namespace Sys2Proof

/-- A command is well formed for an instance exactly when it is a command of the instance's own variant (R71). -/
def Instr.wellFormed (v : Variant) (i : Instr) : Bool := i.variant == v

end Sys2Proof
end

