-- ==== Sys2Proof/Decode.lean ====
section
/-! DEFINITION. The decoder of 30_encoding.md R83 over the opcode table (R72, R85), and the encoder of R70 to R79. -/

namespace Sys2Proof

/-- One row of the opcode table: a word `W` is the row's when `W &&& mask = pattern` (R81, R85); `read` takes the row's
operand fields out of `W` (R73 to R79). -/
structure Row where
  mnemonic : String
  variant : Variant
  pattern : Word
  mask : Word
  read : Word → Instr

/-- The opcode table, `match` and `mask` as R85 lists them, in its order. -/
def rows : List Row :=
  [ { mnemonic := "X16.CFG", variant := .x16
      pattern := 0x10000000000000000000000000000000, mask := 0xFFFFFFFE000000000000000000000000
      read := fun w => .x16Cfg (w.extractLsb' 0 96) (w.getLsbD 96) },
    { mnemonic := "X16.RD", variant := .x16
      pattern := 0x20000000000000000000000000000000, mask := 0xFFFFFFFFFFFFFFFFFFFFFFFFFFFF0000
      read := fun w => .x16Rd (w.extractLsb' 0 16) },
    { mnemonic := "X16.RDPIN", variant := .x16
      pattern := 0x30000000000000000000000000000000, mask := 0xFFFFFFFFFFFFFFFFFFFFFFFFFFFFFFF0
      read := fun w => .x16RdPin (w.extractLsb' 0 4) },
    { mnemonic := "X16.WR", variant := .x16
      pattern := 0x40000000000000000000000000000000, mask := 0xFFFFFFFFFFFFFFFFFFFFFFFF00000000
      read := fun w => .x16Wr (w.extractLsb' 16 16) (w.extractLsb' 0 16) },
    { mnemonic := "X16.WRPIN", variant := .x16
      pattern := 0x50000000000000000000000000000000, mask := 0xFFFFFFFFFFFFFFFFFFFFFFFFFFFFFEF0
      read := fun w => .x16WrPin (w.extractLsb' 0 4) (w.getLsbD 8) },
    { mnemonic := "X8.WR", variant := .x8
      pattern := 0x18000000000000000000000000000000, mask := 0xFFFFFFFFFFFFFFFFFFFFFFFFFFFFFF00
      read := fun w => .x8Wr (w.extractLsb' 0 8) },
    { mnemonic := "X8.WRPIN", variant := .x8
      pattern := 0x28000000000000000000000000000000, mask := 0xFFFFFFFFFFFFFFFFFFFFFFFFFFFFFEF8
      read := fun w => .x8WrPin (w.extractLsb' 0 3) (w.getLsbD 8) },
    { mnemonic := "X8.TGL", variant := .x8
      pattern := 0x38000000000000000000000000000000, mask := 0xFFFFFFFFFFFFFFFFFFFFFFFFFFFFFFF8
      read := fun w => .x8Tgl (w.extractLsb' 0 3) },
    { mnemonic := "X8.RD", variant := .x8
      pattern := 0x48000000000000000000000000000000, mask := 0xFFFFFFFFFFFFFFFFFFFFFFFFFFFFFFFF
      read := fun _ => .x8Rd },
    { mnemonic := "X8.RDPIN", variant := .x8
      pattern := 0x58000000000000000000000000000000, mask := 0xFFFFFFFFFFFFFFFFFFFFFFFFFFFFFFF8
      read := fun w => .x8RdPin (w.extractLsb' 0 3) },
    { mnemonic := "X8.CLEANUP", variant := .x8
      pattern := 0x68000000000000000000000000000000, mask := 0xFFFFFFFFFFFFFFFFFFFFFFFFFFFFFFFF
      read := fun _ => .x8Cleanup } ]

/-- Whether a row takes a word: `(W & mask) == match` (R81). -/
def Row.takes (r : Row) (w : Word) : Bool := w &&& r.mask == r.pattern

/-- The rows of one variant. -/
def rowsOf (v : Variant) : List Row := rows.filter (fun r => r.variant == v)

/-- Why a word is illegal for an instance (R71, R72, R81). The machine answers `ERR_ILLEGAL` to each alike. -/
inductive Illegal where
  | wrongVariant       -- `V` is not the instance's variant (R71)
  | unassignedOpcode   -- `OPC` is in no row of the variant (R72)
  | reservedBits       -- a bit outside the row's fields is not zero (R81)
deriving DecidableEq, Repr

/-- `OPC = W[127:124]` (R70). -/
def opcField (w : Word) : BitVec 4 := w.extractLsb' 124 4

/-- The decoder of R83, for an instance of variant `v`; it refuses by name. -/
def decode (v : Variant) (w : Word) : Except Illegal Instr :=
  if w.getLsbD 123 = v.bit then
    match (rowsOf v).find? (fun r => r.takes w) with
    | some r => .ok (r.read w)
    | none =>
      if (rowsOf v).any (fun r => opcField r.pattern == opcField w) then .error .reservedBits
      else .error .unassignedOpcode
  else .error .wrongVariant

/-- The command word with opcode, variant bit, zero reserved field, `APPLY` and operand area (R70). -/
def commandWord (opc : BitVec 4) (v : Variant) (apply : Bool) (operands : BitVec 96) : Word :=
  opc ++ BitVec.ofBool v.bit ++ 0#26 ++ BitVec.ofBool apply ++ operands

/-- The operand area `W[95:0]` of a command (R73 to R78). -/
def Instr.operands : Instr → BitVec 96
  | .x16Cfg flags _ => flags
  | .x16Rd mask => 0#80 ++ mask
  | .x16RdPin pin => 0#92 ++ pin
  | .x16Wr mask val => 0#64 ++ mask ++ val
  | .x16WrPin pin value => 0#87 ++ BitVec.ofBool value ++ 0#4 ++ pin
  | .x8Wr val => 0#88 ++ val
  | .x8WrPin pin value => 0#87 ++ BitVec.ofBool value ++ 0#5 ++ pin
  | .x8Tgl pin => 0#93 ++ pin
  | .x8Rd => 0#96
  | .x8RdPin pin => 0#93 ++ pin
  | .x8Cleanup => 0#96

/-- `APPLY = W[96]`: zero in every command but `X16.CFG` (R70). -/
def Instr.applyBit : Instr → Bool
  | .x16Cfg _ apply => apply
  | .x16Rd _ => false
  | .x16RdPin _ => false
  | .x16Wr _ _ => false
  | .x16WrPin _ _ => false
  | .x8Wr _ => false
  | .x8WrPin _ _ => false
  | .x8Tgl _ => false
  | .x8Rd => false
  | .x8RdPin _ => false
  | .x8Cleanup => false

/-- The word of a command (R70 to R79). -/
def encode (i : Instr) : Word := commandWord i.opcode i.variant i.applyBit i.operands

/-- The variant that a word's bit `V` names (R70, R71). -/
def variantOfWord (w : Word) : Variant := if w.getLsbD 123 then .x8 else .x16

/-- The word of `nbits` bits of `w`, numbered as spec/opcode_table.json numbers them; a command is 128 bits (R82), so bits
above `nbits` are zero. GXC has no smaller unit of a command and no byte order for it: the port takes all 128 at once. -/
def tableWord (nbits w : Nat) : Word := BitVec.ofNat 128 (w % 2 ^ nbits)

/-- What the decoder of an instance of the word's own variant reads from a table word. -/
def decodeTableWord (nbits w : Nat) : Option Instr :=
  match decode (variantOfWord (tableWord nbits w)) (tableWord nbits w) with
  | .ok i => some i
  | .error _ => none

end Sys2Proof
end

