-- ==== Sys2Proof/Machine/State.lean ====
section
/-! DEFINITION. The state of a GXC instance (spec/10_state.md), its ports (00_scope.md R17), the fault and refusal types,
and the machine after reset (70_reset_and_hazards.md R230). -/

namespace Sys2Proof.Machine

/-- The request half of a bus transaction (20_memory.md R51). -/
inductive Request where
  /-- `W(reg, data)`: for GXC8 `reg` carries the port value and `data` is empty (R50). -/
  | write (reg : Byte) (data : List Byte)
  /-- `S(reg)`: primes the next read (R50). -/
  | select (reg : Byte)
  /-- `R`: reads one byte (R50). -/
  | read
deriving DecidableEq, Repr

/-- One draw of the bus collaborator (00_scope.md R15, 20_memory.md R58, R59): how it completes the transaction it answers.
`ok b` completes a `W` or an `S` with `ok` (its byte is not part of that completion) and an `R` with `ok(b)` (R51). -/
inductive Answer where
  | ok (b : Byte)
  | err (e : BusErr)
  /-- The late completion of a transaction that a reset abandoned: the controller ignores it (70_reset_and_hazards.md R231).
  The bus collaborator knows which request a completion is for, so it, not the controller, tells this case apart
  (notes/assumptions/15.md). -/
  | late
deriving DecidableEq, Repr

/-- The response status (30_encoding.md R80). -/
inductive Status where
  | ok
  | errDir
  | errIllegal
  | errBus
deriving DecidableEq, Repr

/-- The 2-bit code of a status (R80, 60_exceptions.md R200). -/
def Status.code : Status → BitVec 2
  | .ok => 0
  | .errDir => 1
  | .errIllegal => 2
  | .errBus => 3

/-- A response (R80). `ERRP` is meaningful only with `ERR_BUS`, so it is absent otherwise (notes/assumptions/13.md). -/
structure Response where
  status : Status
  data : Mask16
  errp : Option BusErr
deriving DecidableEq, Repr

/-- The local accumulators of one `X16.CFG` (10_state.md R28). -/
structure Accs where
  pu : Mask16
  intEn : Mask16
  defVal : Mask16
  cmp : Mask16
deriving DecidableEq, Repr

/-- Every accumulator is 0x0000 when a command starts (R28). -/
def Accs.zero : Accs := { pu := 0, intEn := 0, defVal := 0, cmp := 0 }

/-- What the controller holds in `BUSY` (10_state.md R36). `index` counts the command's completed transactions, so it is the
index of the transaction now on the bus port, the next to complete (DEDUCED, notes/assumptions/11.md). -/
structure Busy where
  word : Word
  index : Nat
  bytes : List Byte
  accs : Accs
deriving DecidableEq, Repr

/-- A command just accepted: no transaction completed, no byte read, accumulators zero (R28, R36). -/
def Busy.start (w : Word) : Busy := { word := w, index := 0, bytes := [], accs := Accs.zero }

/-- The sequencer's phase (R36). -/
inductive Phase where
  | idle
  | busy (b : Busy)
deriving DecidableEq, Repr

/-- The registers of GXC16 (R22). -/
structure X16Regs where
  inputMask : Mask16
  outputMask : Mask16
  directionMask : Mask16
  activeLowMask : Mask16
  outputCache : Mask16
deriving DecidableEq, Repr

/-- The registers of GXC8 (R32). `pinCache` holds no value until the first successful read: the spec's own "no value"
(R34, 92_eei_decisions.md D11). -/
structure X8Regs where
  portCache : Byte
  pinCache : Option Byte
deriving DecidableEq, Repr

/-- The state of an instance with its ports. An instance is of one variant and uses that variant's registers alone (R2, R3);
the other variant's registers stand idle at their reset values (notes/assumptions/2.md). -/
structure State where
  /-- `VARIANT`, fixed when the instance is built (00_scope.md R2, R9): no step changes it. -/
  variant : Variant
  x16 : X16Regs
  x8 : X8Regs
  phase : Phase
  /-- The response port: the response of the last command, until the next command is accepted
  (00_scope.md R14, notes/assumptions/12.md). -/
  response : Option Response
  /-- The reset input (R17, 70_reset_and_hazards.md R230). -/
  rst : Bool
  /-- The command port: the word the host presents, if any (R17, 10_state.md R37). -/
  cmd : Option Word
  /-- MODEL's own: the bus collaborator's draws that have come, in the order transactions take them; empty means no
  completion has come (R15, 70_reset_and_hazards.md R244, notes/assumptions/4.md). -/
  answers : List Answer
  /-- MODEL's own: the bus port's transaction history, oldest first (60_exceptions.md R217, notes/assumptions/20.md). -/
  trace : List Request
  /-- MODEL's own: how many free values of 42_x16_write.md R144 have been drawn (notes/assumptions/8.md). -/
  draws : Nat
deriving DecidableEq, Repr

/-- Why the machine stops with a fault. -/
inductive Fault where
  /-- `pinCache` was read before any successful GXC8 read. 10_state.md R34 says that a model that reads it then must
  fault rather than return a number (92_eei_decisions.md D11, 93_implementation_defined.md U4). Raised by
  the accessor `readPinCache` alone; no command reads `pinCache` (R34), so no step raises it. Safe. -/
  | pinCacheEmpty
deriving DecidableEq, Repr

/-- Why the machine gives no meaning. -/
inductive Refusal where
  /-- An instruction without a meaning in this model. Raised by no arm: all eleven have one. Safe. -/
  | notModelled (mnemonic : String)
deriving DecidableEq, Repr

/-- The reset values of GXC16 (R22; D9 for `inputMask`, D10 for `outputCache`). -/
def X16Regs.reset : X16Regs :=
  { inputMask := 0x0000, outputMask := 0x0000, directionMask := 0xFFFF, activeLowMask := 0x0000, outputCache := 0x0000 }

/-- The reset values of GXC8 (R32; D11 for `pinCache`). -/
def X8Regs.reset : X8Regs := { portCache := 0xFF, pinCache := none }

/-- An instance of a variant right after reset (70_reset_and_hazards.md R230, R233): registers at their reset values,
sequencer `IDLE`, no response pending, no command presented, nothing on the bus. -/
def State.resetOf (v : Variant) : State :=
  { variant := v, x16 := X16Regs.reset, x8 := X8Regs.reset, phase := .idle, response := none, rst := false, cmd := none
    answers := [], trace := [], draws := 0 }

/-- The machine right after reset. `VARIANT` is a build parameter without a value in the spec; this is the GXC16 instance.
DESIGN CHOICE, unsafe: notes/assumptions/1.md. -/
def State.reset : State := State.resetOf .x16

end Sys2Proof.Machine
end

