-- ==== Sys2Proof/Machine/Flags.lean ====
section
/-! DEFINITION. GXC has no status flags (10_state.md R38): a command's outcome is its response. This file says what each outcome
puts into the three response fields (30_encoding.md R80). -/

namespace Sys2Proof.Machine

/-- A command that completes: `OK` with its result; a command without a result has `DATA = 0x0000` (R80). -/
def Response.done (data : Mask16) : Response := { status := .ok, data := data, errp := none }

/-- DOC0's sentinel: `DATA = 0xFFFF` with `ERR_DIR` (R80, 60_exceptions.md R201). -/
def Response.dir : Response := { status := .errDir, data := 0xFFFF, errp := none }

/-- An illegal word: `DATA = 0x0000` (60_exceptions.md R202). -/
def Response.illegal : Response := { status := .errIllegal, data := 0x0000, errp := none }

/-- A failed transaction: `DATA = 0x0000`, `ERRP` exactly as the bus gave it (60_exceptions.md R203). -/
def Response.bus (e : BusErr) : Response := { status := .errBus, data := 0x0000, errp := some e }

end Sys2Proof.Machine
end

