-- ==== Sys2Proof/Machine/Operands.lean ====
section
/-! DEFINITION. Operand forms: the single-bit masks of 00_scope.md R11, port halves, the pin flag sets of 10_state.md R30 as
30_encoding.md R73 lays them out, and the host's helper `makePinMask` of 41_x16_read.md R120. -/

namespace Sys2Proof.Machine

/-- `bit16(p)`: only bit `p` set (R11). -/
def bit16 (p : Nat) : Mask16 := BitVec.twoPow 16 p

/-- `bit8(p)`: only bit `p` set (R11). -/
def bit8 (p : Nat) : Byte := BitVec.twoPow 8 p

/-- The register number of the port value of port A, pins 0 to 7 (20_memory.md R53). -/
def portA : Byte := 0x12

/-- The register number of the port value of port B, pins 8 to 15 (R53). -/
def portB : Byte := 0x13

/-- `PIN[3]`: whether a GXC16 pin is in port B (41_x16_read.md R126, 20_memory.md R54). -/
def inPortB (pin : BitVec 4) : Bool := pin.getLsbD 3

/-- `PIN[2:0]`: a GXC16 pin's bit within its port (R126, R54). -/
def bitInPort (pin : BitVec 4) : Nat := (pin.extractLsb' 0 3).toNat

/-- `0x12 + PIN[3]`: the port value register that owns a pin (R126, 42_x16_write.md R146). -/
def portOf (pin : BitVec 4) : Byte := if inPortB pin then portB else portA

/-- The half of a 16-bit mask that a pin's port owns. -/
def halfOf (pin : BitVec 4) (v : Mask16) : Byte := if inPortB pin then hi v else lo v

/-- `{b, a}`: a 16-bit value from its port B half `b` and its port A half `a` (R10, 20_memory.md R54). -/
def joinHalves (b a : Byte) : Mask16 := b ++ a

/-- A pin's configuration: the set of `PinConfigFlag`s supplied for it (10_state.md R30). -/
structure PinFlags where
  input : Bool
  output : Bool
  pullUp : Bool
  activeLow : Bool
  rising : Bool
  falling : Bool
deriving DecidableEq, Repr

/-- `F(p) = W[6p+5 : 6p]` read as a flag set (30_encoding.md R73). -/
def pinFlags (flags : BitVec 96) (p : Nat) : PinFlags :=
  { input := flags.getLsbD (6 * p), output := flags.getLsbD (6 * p + 1), pullUp := flags.getLsbD (6 * p + 2)
    activeLow := flags.getLsbD (6 * p + 3), rising := flags.getLsbD (6 * p + 4), falling := flags.getLsbD (6 * p + 5) }

/-- The 6-bit field of a flag set (R73). -/
def PinFlags.field (f : PinFlags) : BitVec 6 :=
  BitVec.ofBool f.falling ++ BitVec.ofBool f.rising ++ BitVec.ofBool f.activeLow ++ BitVec.ofBool f.pullUp
    ++ BitVec.ofBool f.output ++ BitVec.ofBool f.input

/-- The 16-bit vector whose bit `p` is the chosen flag of pin `p` (40_x16_config.md R109, closed form). -/
def flagVector (flags : BitVec 96) (sel : PinFlags → Bool) : Mask16 :=
  (List.range 16).foldl (fun m p => if sel (pinFlags flags p) then m ||| bit16 p else m) 0

/-- The host's pure helper `makePinMask(p1, ..., pn)`: bit `p` for every argument in 0..15, every other argument dropped
(41_x16_read.md R120). -/
def makePinMask (pins : List Int) : Mask16 :=
  pins.foldl (fun m p => if 0 ≤ p ∧ p ≤ 15 then m ||| bit16 p.toNat else m) 0

end Sys2Proof.Machine
end

