-- ==== Sys2Proof/Machine/Ops.lean ====
section
/-! DEFINITION. The shared operations: field updates, the bus primitives run as a script (00_scope.md R13, 20_memory.md R51, R52),
ending a command (R14), the three errors (60_exceptions.md R200 to R203), accepting a command (10_state.md R36, R37), reset
(70_reset_and_hazards.md R230 to R232), and what the environment does to the ports (R236). GXC has no exception to take: an
error ends the command with a response through `endCommand` (60_exceptions.md R208, R209). -/

namespace Sys2Proof.Machine

/-! ### Field updates -/

/-- The GXC16 registers replaced. -/
def State.setX16 (s : State) (r : X16Regs) : State := { s with x16 := r }

/-- The GXC8 registers replaced. -/
def State.setX8 (s : State) (r : X8Regs) : State := { s with x8 := r }

/-- `S.outputCache <- v` (10_state.md R27). -/
def State.setOutputCache (s : State) (v : Mask16) : State := { s with x16 := { s.x16 with outputCache := v } }

/-- `S.portCache <- v` (R33). -/
def State.setPortCache (s : State) (v : Byte) : State := { s with x8 := { s.x8 with portCache := v } }

/-- `S.pinCache <- v` (R34). -/
def State.setPinCache (s : State) (v : Byte) : State := { s with x8 := { s.x8 with pinCache := some v } }

/-- The sequencer's phase replaced. -/
def State.setPhase (s : State) (p : Phase) : State := { s with phase := p }

/-- The draws still to be taken. -/
def State.setAnswers (s : State) (as : List Answer) : State := { s with answers := as }

/-- The word on the command port is taken. -/
def State.takeCmd (s : State) : State := { s with cmd := none }

/-- A request is put on the bus port (20_memory.md R51). -/
def State.issue (s : State) (r : Request) : State := { s with trace := s.trace ++ [r] }

/-- One free value of 42_x16_write.md R144 is used up. -/
def State.useDraw (s : State) : State := { s with draws := s.draws + 1 }

/-- Reading `pinCache`: a fault while it holds no value, because 10_state.md R34 says that "a model that reads it then must fault rather than
return a number" (92_eei_decisions.md D11, 93_implementation_defined.md U4). No command reads it (R34), so no meaning and no step calls this
(notes/assumptions/10.md). -/
def readPinCache (s : State) : Except Fault Byte :=
  match s.x8.pinCache with
  | some b => .ok b
  | none => .error .pinCacheEmpty

/-! ### Ending a command -/

/-- `respond`: the response goes on the response port, and the sequencer returns to `IDLE`, discarding what `BUSY` held
(00_scope.md R14, 10_state.md R36). Every command ends here, with a result or with an error. -/
def State.endCommand (s : State) (r : Response) : State := { s with phase := .idle, response := some r }

/-- `respond(OK, data)`. -/
def respondOk (data : Mask16) (s : State) : State := s.endCommand (.done data)

/-- `raise ErrDir()` (60_exceptions.md R201). -/
def raiseDir (s : State) : State := s.endCommand .dir

/-- `raise ErrIllegal()` (60_exceptions.md R202). -/
def raiseIllegal (s : State) : State := s.endCommand .illegal

/-- `raise ErrBus(e)` (60_exceptions.md R203). -/
def raiseBus (e : BusErr) (s : State) : State := s.endCommand (.bus e)

/-! ### Running a command's bus transactions -/

/-- What a command does on the bus: its transactions in order, what happens when all have completed (given the bytes read),
and what happens when one fails. -/
structure Plan where
  script : List Request
  commit : List Byte → State → State
  fail : BusErr → State → State

/-- The next completion of the transaction in flight, with the draws after it; late completions are ignored
(70_reset_and_hazards.md R231). -/
def nextAnswer : List Answer → Option (Except BusErr Byte × List Answer)
  | [] => none
  | .late :: as => nextAnswer as
  | .ok b :: as => some (.ok b, as)
  | .err e :: as => some (.error e, as)

/-- The byte a completion carries: only an `R` returns one (20_memory.md R51). -/
def readBytes : Request → Byte → List Byte
  | .read, b => [b]
  | .select _, _ => []
  | .write _ _, _ => []

/-- A byte of the list of bytes read; a completed script has read every byte its commit asks for
(notes/assumptions/16.md). -/
def byteAt (bytes : List Byte) (k : Nat) : Byte := bytes.getD k 0

/-- One transaction has completed: the index moves on, and a byte read is kept (10_state.md R36). -/
def Busy.advance (b : Busy) (r : Request) (x : Byte) : Busy :=
  { b with index := b.index + 1, bytes := b.bytes ++ readBytes r x }

/-- The handshakes of the bus port, from a state whose first listed request is in flight: wait while no completion has come
(20_memory.md R52, 70_reset_and_hazards.md R244); on `err(e)` end the command (60_exceptions.md R203); on `ok` issue the next
request, or commit after the last one (R63). With nothing in flight nothing happens. -/
def pump (p : Plan) : List Request → Busy → State → State
  | [], _, s => s
  | r :: rest, b, s =>
    match nextAnswer s.answers with
    | none => (s.setPhase (.busy b)).setAnswers []
    | some (.error e, as) => p.fail e (s.setAnswers as)
    | some (.ok x, as) =>
      match rest with
      | [] => p.commit (b.advance r x).bytes (s.setAnswers as)
      | r' :: _ => pump p rest (b.advance r x) ((s.setAnswers as).issue r')

/-- Start a command's transactions: with none, commit at once; else issue the first and await it. -/
def launch (p : Plan) (b : Busy) (s : State) : State :=
  match p.script with
  | [] => p.commit b.bytes s
  | r :: _ => pump p p.script b (s.issue r)

/-- Go on with a command whose transaction `b.index` is in flight. -/
def continuePlan (p : Plan) (b : Busy) (s : State) : State := pump p (p.script.drop b.index) b s

/-! ### Accepting a command -/

/-- The command port is ready exactly in `IDLE` (10_state.md R36, R37). -/
def State.cmdReady (s : State) : Bool := s.phase == .idle

/-- The state as a command is accepted: `BUSY` with the command word, the response port free for its response (R36). -/
def State.begin (s : State) (w : Word) : State := { s with phase := .busy (Busy.start w), response := none }

/-- Accept a decoded command and run it. In `BUSY` it waits and nothing changes (R37); a command of the other variant is
illegal (30_encoding.md R71, R81). -/
def accept (i : Instr) (run : Busy → State → State) (s : State) : State :=
  match s.phase with
  | .busy _ => s
  | .idle =>
    if i.wellFormed s.variant then run (Busy.start (encode i)) (s.begin (encode i)) else raiseIllegal (s.begin (encode i))

/-- Accept a word that the decoder rejects: `ERR_ILLEGAL`, no state change, no transaction (60_exceptions.md R202). -/
def acceptIllegal (w : Word) (s : State) : State := raiseIllegal (s.begin w)

/-- `IDLE` with no command: the controller waits (70_reset_and_hazards.md R233); late completions that have come are ignored
(R231). -/
def dropLate : List Answer → List Answer
  | .late :: as => dropLate as
  | as => as

/-- A step of waiting in `IDLE`. -/
def idleWait (s : State) : State := s.setAnswers (dropLate s.answers)

/-! ### Reset -/

/-- The draws left by a reset: the completion of the transaction that `BUSY` had in flight is ignored (R231). -/
def answersAfterReset (p : Phase) (as : List Answer) : List Answer :=
  match p with
  | .idle => as
  | .busy _ =>
    match nextAnswer as with
    | none => []
    | some (_, rest) => rest

/-- The reset input taken: every register at its reset value, `IDLE`, no response pending, and no bus transaction (R230, R231,
R232). The build parameter, the host's presented word, the history and the count of free values are not the controller's to
reset (notes/assumptions/14.md). -/
def applyReset (s : State) : State :=
  { State.resetOf s.variant with
    cmd := s.cmd, answers := answersAfterReset s.phase s.answers, trace := s.trace, draws := s.draws }

/-! ### The environment's side of the ports (70_reset_and_hazards.md R236) -/

/-- The host presents a word on a free command port; one command at a time. -/
def State.present (s : State) (w : Word) : State :=
  match s.cmd with
  | none => { s with cmd := some w }
  | some _ => s

/-- The bus collaborator completes a transaction, or tells beforehand how it will (a draw, 00_scope.md R15). -/
def State.deliver (s : State) (a : Answer) : State := { s with answers := s.answers ++ [a] }

/-- The host asserts the reset input, at any time (R231, R236). -/
def State.assertReset (s : State) : State := { s with rst := true }

end Sys2Proof.Machine
end

