-- ==== Sys2Proof/Machine/X16Config.lean ====
section
/-! DEFINITION. GXC16 pin configuration, `X16.CFG` (spec/40_x16_config.md). -/

namespace Sys2Proof.Machine

/-- What the per-pin steps of `X16.CFG` write: the registers and the local accumulators (R100). -/
structure CfgFold where
  regs : X16Regs
  accs : Accs
deriving DecidableEq, Repr

/-- Step 1 (R102): `ActiveLow`, whatever the pin's other flags. -/
def cfgActiveLow (f : PinFlags) (p : Nat) (c : CfgFold) : CfgFold :=
  if f.activeLow then { c with regs := { c.regs with activeLowMask := c.regs.activeLowMask ||| bit16 p } } else c

/-- Step 2 (R103): an input pin; `directionMask` stays (10_state.md R25, D12). -/
def cfgInput (f : PinFlags) (p : Nat) (c : CfgFold) : CfgFold :=
  let oneEdge := f.rising != f.falling
  { regs := { c.regs with inputMask := c.regs.inputMask ||| bit16 p }
    accs :=
      { pu := if f.pullUp then c.accs.pu ||| bit16 p else c.accs.pu
        intEn := if oneEdge || (f.rising && f.falling) then c.accs.intEn ||| bit16 p else c.accs.intEn
        cmp := if oneEdge then c.accs.cmp ||| bit16 p else c.accs.cmp
        defVal := if oneEdge && f.falling then c.accs.defVal ||| bit16 p else c.accs.defVal } }

/-- Step 3 (R104): an output pin that is not given `Input`. -/
def cfgOutput (p : Nat) (c : CfgFold) : CfgFold :=
  { c with regs := { c.regs with directionMask := c.regs.directionMask &&& ~~~bit16 p
                                 outputMask := c.regs.outputMask ||| bit16 p } }

/-- The steps of one pin, `Input` before `Output` (R102 to R105). -/
def cfgPin (flags : BitVec 96) (c : CfgFold) (p : Nat) : CfgFold :=
  let f := pinFlags flags p
  let c1 := cfgActiveLow f p c
  if f.input then cfgInput f p c1 else if f.output then cfgOutput p c1 else c1

/-- The steps of the listed pins in the list's order; the order does not matter (R101). -/
def cfgPins (flags : BitVec 96) (pins : List Nat) (c : CfgFold) : CfgFold := pins.foldl (cfgPin flags) c

/-- The per-pin steps of one `X16.CFG`: all sixteen pins, accumulators from 0x0000 (R109, 10_state.md R28). -/
def cfgAll (flags : BitVec 96) (r : X16Regs) : CfgFold := cfgPins flags (List.range 16) { regs := r, accs := Accs.zero }

/-- One 16-bit value as one write of a register pair: the A address, low byte first (R107, 20_memory.md R60, D7). -/
def writePair (reg : Byte) (v : Mask16) : Request := .write reg [lo v, hi v]

/-- The five writes in DOC0's order (R107). -/
def cfgScript (direction : Mask16) (a : Accs) : List Request :=
  [ writePair 0x00 direction, writePair 0x04 a.intEn, writePair 0x06 a.defVal, writePair 0x08 a.cmp, writePair 0x0C a.pu ]

/-- The bus part of `X16.CFG`: nothing without `APPLY` (R106); a failed write keeps the masks (R112). -/
def planX16Cfg (apply : Bool) (a : Accs) (s : State) : Plan :=
  { script := if apply then cfgScript s.x16.directionMask a else []
    commit := fun _ t => respondOk 0x0000 t
    fail := raiseBus }

/-- `X16.CFG` (R100, R109): the per-pin steps first, then the writes. -/
def execX16Cfg (flags : BitVec 96) (apply : Bool) (s : State) : Host.Outcome State Fault Refusal :=
  .next (accept (.x16Cfg flags apply)
    (fun b t =>
      let c := cfgAll flags t.x16
      launch (planX16Cfg apply c.accs (t.setX16 c.regs)) { b with accs := c.accs } (t.setX16 c.regs))
    s)

end Sys2Proof.Machine
end

