-- ==== Sys2Proof/Machine/X16Read.lean ====
section
/-! DEFINITION. GXC16 reads, `X16.RD` and `X16.RDPIN` (spec/41_x16_read.md). Neither writes a register. -/

namespace Sys2Proof.Machine

/-- Select and read one port (R122, D8). -/
def readPort (reg : Byte) : List Request := [.select reg, .read]

/-- The transactions of `X16.RD`: a half without a mask bit has none (R123), port A before port B (D8). -/
def rdScript (mask : Mask16) : List Request :=
  (if lo mask = 0 then [] else readPort portA) ++ (if hi mask = 0 then [] else readPort portB)

/-- One half of the result: the byte read, inverted by the active-low half, within the mask and input halves (R122). -/
def rdHalf (b activeLow mask input : Byte) : Byte := (b ^^^ activeLow) &&& mask &&& input

/-- `DATA` of `X16.RD` from the bytes read, in order (R122, R124). -/
def rdData (mask : Mask16) (r : X16Regs) (bytes : List Byte) : Mask16 :=
  let a := if lo mask = 0 then 0 else rdHalf (byteAt bytes 0) (lo r.activeLowMask) (lo mask) (lo r.inputMask)
  let b :=
    if hi mask = 0 then 0
    else rdHalf (byteAt bytes (if lo mask = 0 then 0 else 1)) (hi r.activeLowMask) (hi mask) (hi r.inputMask)
  joinHalves b a

/-- The bus part of `X16.RD` (R122). -/
def planX16Rd (mask : Mask16) : Plan :=
  { script := rdScript mask
    commit := fun bytes t => respondOk (rdData mask t.x16 bytes) t
    fail := raiseBus }

/-- `X16.RD` (R121, R122). -/
def execX16Rd (mask : Mask16) (s : State) : Host.Outcome State Fault Refusal :=
  .next (accept (.x16Rd mask) (fun b t => launch (planX16Rd mask) b t) s)

/-- `DATA` of `X16.RDPIN`: the pin's bit of its port byte, inverted where active-low (R126). -/
def rdPinData (pin : BitVec 4) (r : X16Regs) (b : Byte) : Mask16 :=
  (BitVec.ofBool ((b ^^^ halfOf pin r.activeLowMask).getLsbD (bitInPort pin))).zeroExtend 16

/-- The bus part of `X16.RDPIN`: the pin's own port alone (R126, R128). -/
def planX16RdPin (pin : BitVec 4) : Plan :=
  { script := readPort (portOf pin)
    commit := fun bytes t => respondOk (rdPinData pin t.x16 (byteAt bytes 0)) t
    fail := raiseBus }

/-- `X16.RDPIN` (R126): `ERR_DIR` before any transaction when the pin's `directionMask` bit is 0. -/
def execX16RdPin (pin : BitVec 4) (s : State) : Host.Outcome State Fault Refusal :=
  .next (accept (.x16RdPin pin)
    (fun b t => if t.x16.directionMask.getLsbD pin.toNat then launch (planX16RdPin pin) b t else raiseDir t)
    s)

end Sys2Proof.Machine
end

