-- ==== Sys2Proof/Machine/X16Write.lean ====
section
/-! DEFINITION. GXC16 masked writes, `X16.WR` and `X16.WRPIN` (spec/42_x16_write.md), over the one masked register write state
machine of R148. -/

namespace Sys2Proof.Machine

/-- `m = MASK & outputMask` (R140). -/
def wrMask (mask : Mask16) (r : X16Regs) : Mask16 := mask &&& r.outputMask

/-- `new = (outputCache & ~m) | (VAL & m)` (R141). -/
def wrMerge (m val : Mask16) (r : X16Regs) : Mask16 := (r.outputCache &&& ~~~m) ||| (val &&& m)

/-- States WR_A and WR_B (R148): one one-byte write for each half that `m` touches, inverted where active-low, port A first
(R141, R143, D8). -/
def wrScript (m new : Mask16) (r : X16Regs) : List Request :=
  (if lo m = 0 then [] else [.write portA [lo new ^^^ lo r.activeLowMask]])
    ++ (if hi m = 0 then [] else [.write portB [hi new ^^^ hi r.activeLowMask]])

/-- State FAIL (R148): `outputCache` is a draw of exactly its old value and `new` (R144, D13), then `ERR_BUS`.
The free value: notes/assumptions/8.md. -/
def failWrite (new : Mask16) (e : BusErr) (s : State) : State :=
  raiseBus e
    (s.setOutputCache (if Config.failedWriteTakesNew s.draws then new else s.x16.outputCache)).useDraw

/-- The masked register write state machine after MERGE (R148): COMMIT stores the value before inversion (R142). -/
def planMaskedWrite (m new : Mask16) (r : X16Regs) : Plan :=
  { script := wrScript m new r
    commit := fun _ t => respondOk 0x0000 (t.setOutputCache new)
    fail := failWrite new }

/-- The bus part of `X16.WR` (R141). -/
def planX16Wr (mask val : Mask16) (s : State) : Plan :=
  planMaskedWrite (wrMask mask s.x16) (wrMerge (wrMask mask s.x16) val s.x16) s.x16

/-- `X16.WR` (R140, R141): bits of `MASK` outside `outputMask` are dropped without an error. -/
def execX16Wr (mask val : Mask16) (s : State) : Host.Outcome State Fault Refusal :=
  .next (accept (.x16Wr mask val) (fun b t => launch (planX16Wr mask val t) b t) s)

/-- `zext_16(v) << p` (R146). -/
def pinLevel (pin : BitVec 4) (value : Bool) : Mask16 := (BitVec.ofBool value).zeroExtend 16 <<< pin.toNat

/-- The bus part of `X16.WRPIN`: MERGE with `MASK = bit16(p)` and `VAL = zext_16(v) << p`, which past CHECK is R146's `m = bit16(p)`
(R146, R148, notes/assumptions/9.md). -/
def planX16WrPin (pin : BitVec 4) (value : Bool) (s : State) : Plan :=
  planMaskedWrite (wrMask (bit16 pin.toNat) s.x16)
    (wrMerge (wrMask (bit16 pin.toNat) s.x16) (pinLevel pin value) s.x16) s.x16

/-- `X16.WRPIN` (R146): `ERR_DIR` before any transaction when the pin's `outputMask` bit is 0 (CHECK of R148). -/
def execX16WrPin (pin : BitVec 4) (value : Bool) (s : State) : Host.Outcome State Fault Refusal :=
  .next (accept (.x16WrPin pin value)
    (fun b t => if t.x16.outputMask.getLsbD pin.toNat then launch (planX16WrPin pin value t) b t else raiseDir t)
    s)

end Sys2Proof.Machine
end

