-- ==== Sys2Proof/Machine/X8Port.lean ====
section
/-! DEFINITION. The GXC8 port commands (spec/43_x8_port.md): each issues exactly one transaction, `W(value, [])` or `R`. -/

namespace Sys2Proof.Machine

/-- The one write of a GXC8 command: `reg` carries the port value, no data byte (20_memory.md R50, R56). -/
def planSendPort (value : Byte) : Plan :=
  { script := [.write value []]
    commit := fun _ t => respondOk 0x0000 t
    fail := raiseBus }

/-- The one read of a GXC8 command: `pinCache` takes the whole byte, and only when the read succeeds (R166, R167). -/
def planReadPort (data : Byte → Mask16) : Plan :=
  { script := [.read]
    commit := fun bytes t => respondOk (data (byteAt bytes 0)) (t.setPinCache (byteAt bytes 0))
    fail := raiseBus }

/-- `S.portCache <- v`, then `BusWrite(S.portCache, [])`, in DOC0's order (R160, R161). -/
def cacheAndSend (v : Byte) (b : Busy) (s : State) : State :=
  launch (planSendPort (s.setPortCache v).x8.portCache) b (s.setPortCache v)

/-- `X8.WR` (R160). -/
def execX8Wr (val : Byte) (s : State) : Host.Outcome State Fault Refusal :=
  .next (accept (.x8Wr val) (fun b t => cacheAndSend val b t) s)

/-- One bit of a port byte set or cleared (R162). -/
def writeBit (cache : Byte) (pin : BitVec 3) (value : Bool) : Byte :=
  if value then cache ||| bit8 pin.toNat else cache &&& ~~~bit8 pin.toNat

/-- `X8.WRPIN` (R162). -/
def execX8WrPin (pin : BitVec 3) (value : Bool) (s : State) : Host.Outcome State Fault Refusal :=
  .next (accept (.x8WrPin pin value) (fun b t => cacheAndSend (writeBit t.x8.portCache pin value) b t) s)

/-- `X8.TGL` (R164). -/
def execX8Tgl (pin : BitVec 3) (s : State) : Host.Outcome State Fault Refusal :=
  .next (accept (.x8Tgl pin) (fun b t => cacheAndSend (t.x8.portCache ^^^ bit8 pin.toNat) b t) s)

/-- `DATA` of `X8.RD`: `zext_16(b)` (R166). -/
def rdByteData (b : Byte) : Mask16 := b.zeroExtend 16

/-- `DATA` of `X8.RDPIN`: `zext_16(b[p])`, no inversion (R168, R169). -/
def rdBitData (pin : BitVec 3) (b : Byte) : Mask16 := (BitVec.ofBool (b.getLsbD pin.toNat)).zeroExtend 16

/-- `X8.RD` (R166). -/
def execX8Rd (s : State) : Host.Outcome State Fault Refusal :=
  .next (accept .x8Rd (fun b t => launch (planReadPort rdByteData) b t) s)

/-- `X8.RDPIN` (R168). -/
def execX8RdPin (pin : BitVec 3) (s : State) : Host.Outcome State Fault Refusal :=
  .next (accept (.x8RdPin pin) (fun b t => launch (planReadPort (rdBitData pin)) b t) s)

/-- `portCache` after `X8.CLEANUP`, for either value of `X8_CLEANUP_CACHE` (R171, R172, D15). -/
def cleanupCache (c : CleanupCache) (cache : Byte) : Byte :=
  match c with
  | .keep => cache
  | .setFF => 0xFF

/-- The port byte of `X8.CLEANUP` (R171): 0xFF in both settings. -/
def cleanupByte : Byte := 0xFF

/-- `X8.CLEANUP` (R171). -/
def execX8Cleanup (s : State) : Host.Outcome State Fault Refusal :=
  .next (accept .x8Cleanup
    (fun b t =>
      launch (planSendPort cleanupByte) b (t.setPortCache (cleanupCache Config.x8CleanupCache t.x8.portCache)))
    s)

end Sys2Proof.Machine
end

