-- ==== Sys2Proof/Machine/Resume.lean ====
section
/-! DEFINITION. Going on with the command in progress (10_state.md R36): in `BUSY` the controller holds the command word, from which
and from the registers, which no other command touches meanwhile (42_x16_write.md R148), the rest of the script follows. -/

namespace Sys2Proof.Machine

/-- The bus part of a command in progress. -/
def planOf (i : Instr) (b : Busy) (s : State) : Plan :=
  match i with
  | .x16Cfg _ apply => planX16Cfg apply b.accs s
  | .x16Rd mask => planX16Rd mask
  | .x16RdPin pin => planX16RdPin pin
  | .x16Wr mask val => planX16Wr mask val s
  | .x16WrPin pin value => planX16WrPin pin value s
  | .x8Wr _ => planSendPort s.x8.portCache
  | .x8WrPin _ _ => planSendPort s.x8.portCache
  | .x8Tgl _ => planSendPort s.x8.portCache
  | .x8Rd => planReadPort rdByteData
  | .x8RdPin pin => planReadPort (rdBitData pin)
  | .x8Cleanup => planSendPort cleanupByte

/-- The request on the bus port in `BUSY` (20_memory.md R51). -/
def State.outstanding (s : State) : Option Request :=
  match s.phase with
  | .idle => none
  | .busy b =>
    match decode s.variant b.word with
    | .ok i => (planOf i b s).script[b.index]?
    | .error _ => none

/-- Take the command in progress through the handshakes whose completions have come. A `BUSY` state with no request on the bus,
which no run reaches, stays as it is: `BUSY` ends on a completion or a reset only (70_reset_and_hazards.md R244,
notes/assumptions/16.md). -/
def resume (b : Busy) (s : State) : State :=
  match decode s.variant b.word with
  | .ok i => continuePlan (planOf i b s) b s
  | .error _ => s

end Sys2Proof.Machine
end

