-- ==== Sys2Proof/Machine/Dispatch.lean ====
section
/-! DEFINITION. The meaning of each command, one arm a constructor. -/

namespace Sys2Proof.Machine

def exec (i : Instr) (s : State) : Host.Outcome State Fault Refusal :=
  match i with
  | .x16Cfg flags apply => Sys2Proof.Machine.execX16Cfg flags apply s
  | .x16Rd mask => Sys2Proof.Machine.execX16Rd mask s
  | .x16RdPin pin => Sys2Proof.Machine.execX16RdPin pin s
  | .x16Wr mask val => Sys2Proof.Machine.execX16Wr mask val s
  | .x16WrPin pin value => Sys2Proof.Machine.execX16WrPin pin value s
  | .x8Wr val => Sys2Proof.Machine.execX8Wr val s
  | .x8WrPin pin value => Sys2Proof.Machine.execX8WrPin pin value s
  | .x8Tgl pin => Sys2Proof.Machine.execX8Tgl pin s
  | .x8Rd => Sys2Proof.Machine.execX8Rd s
  | .x8RdPin pin => Sys2Proof.Machine.execX8RdPin pin s
  | .x8Cleanup => Sys2Proof.Machine.execX8Cleanup s

end Sys2Proof.Machine
end

