-- ==== Sys2Proof/Machine/Step.lean ====
section
/-! DEFINITION. One step of the controller (10_state.md R36, R37, 70_reset_and_hazards.md R230 to R233), and how a command is put where
the next step takes it. -/

namespace Sys2Proof.Machine

/-- One step. The reset input comes first (R231). In `BUSY` the command in progress goes on and a presented command waits (R37). In
`IDLE` a presented word is taken off the command port, decoded (30_encoding.md R83) and run, or answered `ERR_ILLEGAL` (R202). -/
def step (s : State) : Host.Outcome State Fault Refusal :=
  if s.rst then .next (applyReset s)
  else
    match s.phase with
    | .busy b => .next (resume b s)
    | .idle =>
      match s.cmd with
      | none => .next (idleWait s)
      | some w =>
        match decode s.variant w with
        | .ok i => exec i s.takeCmd
        | .error _ => .next (acceptIllegal w s.takeCmd)

/-- The word presented to an idle instance of the word's own variant, so that the next step accepts it. GXC fetches nothing
(10_state.md R21): a program is the sequence of words a host presents (notes/assumptions/17.md). -/
def State.withFetchWord (s : State) (nbits w : Nat) : State :=
  { s with variant := variantOfWord (tableWord nbits w), phase := .idle, rst := false, cmd := some (tableWord nbits w) }

end Sys2Proof.Machine
end

