-- ==== Sys2Proof/Machine/Assembler.lean ====
section
/-! DEFINITION. The assembler syntax and pseudo-instructions of 30_encoding.md R84. The assembler is a tool of the host: it makes the
command a host presents, and no step of the controller uses it. -/

namespace Sys2Proof.Machine

/-- `PinConfigFlag` (10_state.md R30). -/
inductive PinConfigFlag where
  | input
  | output
  | pullUp
  | activeLow
  | risingInterrupt
  | fallingInterrupt
deriving DecidableEq, Repr

/-- The flag's bit of `F(p)` (R73, D4). -/
def PinConfigFlag.bit : PinConfigFlag → Nat
  | .input => 0
  | .output => 1
  | .pullUp => 2
  | .activeLow => 3
  | .risingInterrupt => 4
  | .fallingInterrupt => 5

/-- One line of assembler, its numbers as written (R84). `x16Rd none` is `x16.rd` with no operand. -/
inductive AsmLine where
  | x16Cfg (noapply : Bool) (entries : List (Nat × List PinConfigFlag))
  | x16Rd (mask : Option Nat)
  | x16RdPin (pin : Nat)
  | x16Wr (mask val : Nat)
  | x16WrPin (pin value : Nat)
  | x8Wr (val : Nat)
  | x8WrPin (pin value : Nat)
  | x8Tgl (pin : Nat)
  | x8Rd
  | x8RdPin (pin : Nat)
  | x8Cleanup
deriving DecidableEq, Repr

/-- A number as a field of `w` bits. A number that does not fit is an assembler error (DESIGN CHOICE, notes/assumptions/19.md). -/
def asField (w n : Nat) : Option (BitVec w) := if n < 2 ^ w then some (BitVec.ofNat w n) else none

/-- `V` in {0, 1} (R84). -/
def asLevel : Nat → Option Bool
  | 0 => some false
  | 1 => some true
  | _ => none

/-- The 6-bit field of a list of flags (R73); a flag named twice is the same set. -/
def flagField (fs : List PinConfigFlag) : BitVec 6 := fs.foldl (fun m f => m ||| BitVec.twoPow 6 f.bit) 0

/-- `FLAGS` of a mapping whose pins are 0..15, each listed once; otherwise an assembler error (R84). -/
def asMapping (entries : List (Nat × List PinConfigFlag)) : Option (BitVec 96) :=
  if entries.all (fun e => e.1 < 16) ∧ (entries.map Prod.fst).Nodup then
    some (entries.foldl (fun m e => m ||| ((flagField e.2).zeroExtend 96 <<< (6 * e.1))) 0)
  else none

/-- The command of a line, or an assembler error (R84). -/
def assemble : AsmLine → Option Instr
  | .x16Cfg noapply entries => (asMapping entries).map fun flags => .x16Cfg flags (!noapply)
  | .x16Rd none => some (.x16Rd 0xFFFF)
  | .x16Rd (some mask) => (asField 16 mask).map .x16Rd
  | .x16RdPin pin => (asField 4 pin).map .x16RdPin
  | .x16Wr mask val => (asField 16 mask).bind fun m => (asField 16 val).map fun v => .x16Wr m v
  | .x16WrPin pin value => (asField 4 pin).bind fun p => (asLevel value).map fun v => .x16WrPin p v
  | .x8Wr val => (asField 8 val).map .x8Wr
  | .x8WrPin pin value => (asField 3 pin).bind fun p => (asLevel value).map fun v => .x8WrPin p v
  | .x8Tgl pin => (asField 3 pin).map .x8Tgl
  | .x8Rd => some .x8Rd
  | .x8RdPin pin => (asField 3 pin).map .x8RdPin
  | .x8Cleanup => some .x8Cleanup

/-! ### The text of a line -/

/-- A text split at a separator. -/
def splitAt (sep : Char) : List Char → List (List Char)
  | [] => [[]]
  | c :: cs =>
    match splitAt sep cs with
    | [] => [[c]]
    | w :: ws => if c = sep then [] :: w :: ws else (c :: w) :: ws

/-- A text without the spaces at its ends. -/
def trimmed (cs : List Char) : List Char := ((cs.dropWhile (· = ' ')).reverse.dropWhile (· = ' ')).reverse

/-- The value of a digit, hexadecimal digits included. -/
def digitValue (c : Char) : Option Nat :=
  if '0' ≤ c ∧ c ≤ '9' then some (c.toNat - '0'.toNat)
  else if 'a' ≤ c ∧ c ≤ 'f' then some (c.toNat - 'a'.toNat + 10)
  else if 'A' ≤ c ∧ c ≤ 'F' then some (c.toNat - 'A'.toNat + 10)
  else none

/-- The digits of a number in a base, most significant first. -/
def digits (base : Nat) (acc : Nat) : List Char → Option Nat
  | [] => some acc
  | c :: cs =>
    match digitValue c with
    | some d => if d < base then digits base (base * acc + d) cs else none
    | none => none

/-- Numbers are decimal or `0x` hexadecimal (R84). -/
def number (cs : List Char) : Option Nat :=
  match trimmed cs with
  | [] => none
  | ['0', 'x'] => none
  | '0' :: 'x' :: ds => digits 16 0 ds
  | ds => digits 10 0 ds

/-- The numbers of a comma-separated operand list; no text is the empty list. -/
def numbers (cs : List Char) : Option (List Nat) :=
  if trimmed cs = [] then some [] else (splitAt ',' cs).mapM number

/-- A flag name (R84). -/
def flagName (cs : List Char) : Option PinConfigFlag :=
  if cs = ['i', 'n'] then some .input
  else if cs = ['o', 'u', 't'] then some .output
  else if cs = ['p', 'u'] then some .pullUp
  else if cs = ['a', 'l'] then some .activeLow
  else if cs = ['r', 'i', 's', 'e'] then some .risingInterrupt
  else if cs = ['f', 'a', 'l', 'l'] then some .fallingInterrupt
  else none

/-- One entry `p:flag|flag...` of a mapping. -/
def mapEntry (cs : List Char) : Option (Nat × List PinConfigFlag) :=
  match splitAt ':' cs with
  | [p, fs] => (number p).bind fun n => ((splitAt '|' fs).mapM fun f => flagName (trimmed f)).map fun l => (n, l)
  | _ => none

/-- The operand text of `x16.cfg`: `[noapply]`, then the mapping, which may be empty (R84). -/
def cfgLine (cs : List Char) : Option AsmLine :=
  let noapply := (trimmed cs).takeWhile (· ≠ ' ') = "noapply".toList
  let mapping := if noapply then (trimmed cs).dropWhile (· ≠ ' ') else cs
  if trimmed mapping = [] then some (.x16Cfg noapply [])
  else ((splitAt ',' mapping).mapM mapEntry).map fun es => .x16Cfg noapply es

/-- One line of text as a line of assembler, or an assembler error (R84). -/
def parseLine (text : String) : Option AsmLine :=
  let line := trimmed text.toList
  let name := line.takeWhile (· ≠ ' ')
  let rest := line.dropWhile (· ≠ ' ')
  if name = "x16.cfg".toList then cfgLine rest
  else
    match numbers rest with
    | none => none
    | some ns =>
      if name = "x16.rd".toList then
        match ns with
        | [] => some (.x16Rd none)
        | [m] => some (.x16Rd (some m))
        | _ => none
      else if name = "x16.rdpin".toList then
        match ns with
        | [p] => some (.x16RdPin p)
        | _ => none
      else if name = "x16.wr".toList then
        match ns with
        | [m, v] => some (.x16Wr m v)
        | _ => none
      else if name = "x16.wrpin".toList then
        match ns with
        | [p, v] => some (.x16WrPin p v)
        | _ => none
      else if name = "x8.wr".toList then
        match ns with
        | [v] => some (.x8Wr v)
        | _ => none
      else if name = "x8.wrpin".toList then
        match ns with
        | [p, v] => some (.x8WrPin p v)
        | _ => none
      else if name = "x8.tgl".toList then
        match ns with
        | [p] => some (.x8Tgl p)
        | _ => none
      else if name = "x8.rd".toList then
        match ns with
        | [] => some .x8Rd
        | _ => none
      else if name = "x8.rdpin".toList then
        match ns with
        | [p] => some (.x8RdPin p)
        | _ => none
      else if name = "x8.cleanup".toList then
        match ns with
        | [] => some .x8Cleanup
        | _ => none
      else none

/-- The word of a line of text, or an assembler error (R84). -/
def assembleText (text : String) : Option Word := ((parseLine text).bind assemble).map encode

end Sys2Proof.Machine
end

