-- ==== Sys2Proof/Safety.lean ====
section
/-! DEFINITION. What counts as a safe run: the relations between registers (10_state.md R29), the requests an instance may put on its
bus (20_memory.md R55, R56, R62), what a `BUSY` state looks like (10_state.md R36), the end of a run (70_reset_and_hazards.md R252),
and the state in which a command ends. -/

namespace Sys2Proof.Machine

/-- The two relations of R29 that hold in every reachable state. -/
def X16Regs.coherent (r : X16Regs) : Bool :=
  r.directionMask == ~~~r.outputMask && r.outputCache &&& ~~~r.outputMask == 0

/-- The A addresses of the five configuration pairs (R53, R107). -/
def pairAddresses : List Byte := [0x00, 0x04, 0x06, 0x08, 0x0C]

/-- Whether an instance of the variant may issue the request: GXC16 writes two bytes at the A address of a configuration pair, one byte
at a port address, and selects a port address (R55, R61, R62); GXC8 writes its port value with no data byte and never selects (R56). -/
def Request.allowed : Variant → Request → Bool
  | .x16, .write reg [_, _] => pairAddresses.contains reg
  | .x16, .write reg [_] => reg == portA || reg == portB
  | .x16, .write _ _ => false
  | .x16, .select reg => reg == portA || reg == portB
  | .x16, .read => true
  | .x8, .write _ [] => true
  | .x8, .write _ _ => false
  | .x8, .select _ => false
  | .x8, .read => true

/-- How many of the requests are reads. -/
def readCount : List Request → Nat
  | [] => 0
  | .read :: rs => readCount rs + 1
  | .select _ :: rs => readCount rs
  | .write _ _ :: rs => readCount rs

/-- What R36 says a `BUSY` controller holds, as relations: the word of a command of this instance, a transaction of its script in
flight, one byte for each read completed; and the response port is free for the command's response. -/
def State.busyWf (s : State) : Bool :=
  match s.phase with
  | .idle => true
  | .busy b =>
    match decode s.variant b.word with
    | .error _ => false
    | .ok i =>
      s.response == none && b.index < (planOf i b s).script.length
        && b.bytes.length == readCount ((planOf i b s).script.take b.index)

/-- The registers of the variant that the instance is not (R2, R3): never touched. -/
def State.otherIdle (s : State) : Bool :=
  match s.variant with
  | .x16 => s.x8 == X8Regs.reset
  | .x8 => s.x16 == X16Regs.reset

/-- The invariant of every reachable state. -/
def State.inv (s : State) : Bool := s.x16.coherent && s.busyWf && s.otherIdle

/-- The end of a run (R252): `IDLE`, and the host presents no command; every accepted command has its response, since an instance in
`IDLE` has none in progress. A command that a reset abandoned never gets a response (70_reset_and_hazards.md R231), and R252 does not say how
it counts: DESIGN CHOICE, it counts no longer, so the `IDLE` after such a reset is the end of a run too (notes/assumptions/26.md). -/
def State.runEnded (s : State) : Bool := s.phase == .idle && s.cmd == none

/-- The state in which a command accepted in `s` has ended: these requests were issued, these draws are left, this is the response, the
sequencer is `IDLE`, and NOTHING ELSE has changed. -/
def State.ended (s : State) (issued : List Request) (left : List Answer) (r : Response) : State :=
  { s with phase := .idle, response := some r, trace := s.trace ++ issued, answers := left }

/-- The instance is ready for a command of the variant: `IDLE`, and of that variant (R36, R71). -/
abbrev State.readyFor (s : State) (v : Variant) : Prop := s.phase = .idle ∧ s.variant = v

/-- The registers after the per-pin steps of `X16.CFG`, in the closed form of 40_x16_config.md R109. -/
def cfgClosedRegs (flags : BitVec 96) (r : X16Regs) : X16Regs :=
  { activeLowMask := r.activeLowMask ||| flagVector flags PinFlags.activeLow
    inputMask := r.inputMask ||| flagVector flags PinFlags.input
    outputMask := r.outputMask ||| (flagVector flags PinFlags.output &&& ~~~flagVector flags PinFlags.input)
    directionMask := r.directionMask &&& ~~~(flagVector flags PinFlags.output &&& ~~~flagVector flags PinFlags.input)
    outputCache := r.outputCache }

/-- The local accumulators after the per-pin steps of `X16.CFG`, in the closed form of R109. -/
def cfgClosedAccs (flags : BitVec 96) : Accs :=
  { pu := flagVector flags PinFlags.input &&& flagVector flags PinFlags.pullUp
    intEn := flagVector flags PinFlags.input &&& (flagVector flags PinFlags.rising ||| flagVector flags PinFlags.falling)
    cmp := flagVector flags PinFlags.input &&& (flagVector flags PinFlags.rising ^^^ flagVector flags PinFlags.falling)
    defVal := flagVector flags PinFlags.input &&& flagVector flags PinFlags.falling &&& ~~~flagVector flags PinFlags.rising }

/-- What the response fields hold for each status (30_encoding.md R80): `DATA` is 0xFFFF with `ERR_DIR`, 0x0000 with the other errors,
and `ERRP` is there exactly with `ERR_BUS`. -/
def Response.fieldsByStatus (r : Response) : Bool :=
  match r.status with
  | .ok => r.errp == none
  | .errDir => r.data == 0xFFFF && r.errp == none
  | .errIllegal => r.data == 0x0000 && r.errp == none
  | .errBus => r.data == 0x0000 && r.errp.isSome

/-- The state with another `pinCache`. -/
def State.withPinCache (s : State) (p : Option Byte) : State := { s with x8 := { s.x8 with pinCache := p } }

/-- A draw that completes the transaction in flight, not a late completion (R231). -/
def Answer.counts : Answer → Bool
  | .ok _ => true
  | .err _ => true
  | .late => false

end Sys2Proof.Machine
end

