-- ==== Sys2Proof/Certificates/Slice0/Obligations.lean ====
section
/-! DEFINITION. The statements for the provers, in the order of OBLIGATIONS.json. `State.ended` (Safety.lean) is the state in which a command
has ended and NOTHING ELSE than what it lists has changed, so a conclusion `exec i s = .next (… .ended …)` is the result, the completion and the
frame of the command at once.

Three things in those conclusions are the model's choices, and no rule is cited for them: `errp := none` where the status is not `ERR_BUS`
(notes/assumptions/13.md), the bus's draws as the list `answers` (notes/assumptions/4.md), and that one step takes every completion that has
come (notes/assumptions/3.md). -/

open Sys2Proof Sys2Proof.Machine

/-! ### Encoding -/

/-- Every command's word is decoded to that command by an instance of its variant, for every operand value (R70 to R79, R83). -/
def Obligations.DecodeOfEncodeIsTheCommand : Prop :=
  ∀ i : Instr, decode i.variant (encode i) = .ok i

/-- A word that decodes is the word of the command it decodes to: no bit of a legal word is dropped (R81, R83). -/
def Obligations.EncodeOfDecodeIsTheWord : Prop :=
  ∀ (v : Variant) (w : Word) (i : Instr), decode v w = .ok i → i.variant = v ∧ encode i = w

/-- A word decodes for an instance exactly when one row of the instance's variant takes it, and then one row only (R81, R83). -/
def Obligations.WordDecodesIffExactlyOneRowTakesIt : Prop :=
  ∀ (v : Variant) (w : Word), (∃ i, decode v w = .ok i) ↔ ∃! m : String, ∃ r ∈ rowsOf v, r.takes w = true ∧ r.mnemonic = m

/-- `F(p) = W[6p+5 : 6p]` holds pin `p`'s flags, bit 0 `Input` to bit 5 `FallingInterrupt` (R73). -/
def Obligations.CfgWordHoldsEachPinsFlagField : Prop :=
  ∀ (flags : BitVec 96) (apply : Bool) (p : Nat), p < 16 →
    (encode (.x16Cfg flags apply)).extractLsb' (6 * p) 6 = (pinFlags flags p).field

/-- Words written out in R85 and 95_test_vectors.md decode to the commands they stand for, and illegal ones are refused; the names of the refusals
are the model's (notes/assumptions/25.md). -/
def Obligations.SpecWordsDecode : Prop :=
  decode .x16 0x1000000100000000000200000000000D = .ok (.x16Cfg 0x00000000000200000000000D true) ∧
  decode .x16 0x20000000000000000000000000000003 = .ok (.x16Rd 0x0003) ∧
  decode .x16 0x5000000000000000000000000000010F = .ok (.x16WrPin 15 true) ∧
  decode .x8 0x28000000000000000000000000000103 = .ok (.x8WrPin 3 true) ∧
  decode .x8 0x68000000000000000000000000000000 = .ok .x8Cleanup ∧
  decode .x16 0x10000003000000000000000000000000 = .error .reservedBits ∧
  decode .x16 0x18000000000000000000000000000000 = .error .wrongVariant ∧
  decode .x8 0x78000000000000000000000000000000 = .error .unassignedOpcode

/-! ### The step -/

/-- An idle instance takes the presented word off the command port and runs the command it decodes to (R36, R83). -/
def Obligations.StepRunsTheDecodedCommand : Prop :=
  ∀ (s : State) (w : Word) (i : Instr), s.rst = false → s.phase = .idle → s.cmd = some w → decode s.variant w = .ok i →
    step s = exec i { s with cmd := none }

/-- A word that no row of the instance's variant takes is answered `ERR_ILLEGAL`, with no state change and no transaction (R202). -/
def Obligations.IllegalWordIsAnsweredAndChangesNothing : Prop :=
  ∀ (s : State) (w : Word), s.rst = false → s.phase = .idle → s.cmd = some w →
    (∀ r ∈ rows, r.variant = s.variant → w &&& r.mask ≠ r.pattern) →
    step s = .next (State.ended { s with cmd := none } [] s.answers { status := .errIllegal, data := 0x0000, errp := none })

/-- The model's choice (notes/assumptions/18.md), which no step meets: `exec` of a decoded command on an idle instance of the other variant gives
the answer that R71 and R202 give the command's word. What they say of the presented word itself is `IllegalWordIsAnsweredAndChangesNothing`. -/
def Obligations.CommandOfOtherVariantIsIllegal : Prop :=
  ∀ (i : Instr) (s : State), s.phase = .idle → s.variant ≠ i.variant →
    exec i s = .next (s.ended [] s.answers { status := .errIllegal, data := 0x0000, errp := none })

/-- In `BUSY` the command port is not ready and a presented command waits: it is not lost, it is not answered, and only what the command in
progress does happens (R37). That `exec` called in `BUSY`, as no step calls it, leaves the state as it is is the model's choice
(notes/assumptions/18.md). -/
def Obligations.CommandWaitsWhileBusy : Prop :=
  ∀ (s : State) (b : Busy), s.phase = .busy b →
    s.cmdReady = false ∧ (∀ i, exec i s = .next s) ∧
    (s.rst = false → ∀ (c : Option Word), ∃ t, step s = .next t ∧ step { s with cmd := c } = .next { t with cmd := c })

/-- While no completion has come, `BUSY` stays: nothing but the ignoring of late completions happens, however often the machine steps; only
the reset input ends it (R244, which the spec derives from R52). -/
def Obligations.BusyStaysWithoutCompletion : Prop :=
  ∀ (s : State) (b : Busy), s.rst = false → s.phase = .busy b → (∀ a ∈ s.answers, a = .late) →
    (∀ n, ∃ as, Host.Core.run Sys2Proof.core n s = .next { s with answers := as }) ∧
    ∃ t, step s.assertReset = .next t ∧ t.phase = .idle ∧ t.response = none ∧ t.cmdReady = true

/-- No step stops with a fault or a refusal: every error is a response (R208). -/
def Obligations.StepNeverStops : Prop :=
  ∀ s : State, ∃ t, step s = .next t

/-- Taking the reset input, in any phase: every register at its reset value, `IDLE`, no response pending (R230), the variant as built. The
requests issued stay as they were: reset issues none. -/
def Obligations.ResetInputResetsTheController : Prop :=
  ∀ s : State, s.rst = true → ∃ t, step s = .next t ∧
    t.x16 = { inputMask := 0x0000, outputMask := 0x0000, directionMask := 0xFFFF, activeLowMask := 0x0000, outputCache := 0x0000 } ∧
    t.x8 = { portCache := 0xFF, pinCache := none } ∧
    t.phase = .idle ∧ t.response = none ∧ t.variant = s.variant ∧ t.trace = s.trace

/-- The reset values of both variants (R22, R32, R36), and the instance `State.reset` is GXC16 (the model's choice, notes/assumptions/1.md). -/
def Obligations.ResetStateHoldsTheResetValues : Prop :=
  (∀ v : Variant,
    (State.resetOf v).variant = v ∧ (State.resetOf v).x16.inputMask = 0x0000 ∧ (State.resetOf v).x16.outputMask = 0x0000 ∧
    (State.resetOf v).x16.directionMask = 0xFFFF ∧ (State.resetOf v).x16.activeLowMask = 0x0000 ∧
    (State.resetOf v).x16.outputCache = 0x0000 ∧ (State.resetOf v).x8.portCache = 0xFF ∧ (State.resetOf v).x8.pinCache = none ∧
    (State.resetOf v).phase = .idle ∧ (State.resetOf v).response = none) ∧
  State.reset = State.resetOf .x16

/-- A late completion of an abandoned transaction changes nothing (R231): not for the command in progress; not in `IDLE` without a command,
where a step changes nothing but the late completions it drops (R233); and in no other state either, where it is dropped or still waits to
be ignored. That the bus collaborator marks such a completion, and that the `IDLE` step drops it, are the model's choices
(notes/assumptions/15.md, notes/assumptions/23.md). -/
def Obligations.LateCompletionIsIgnored : Prop :=
  (∀ (s : State) (as : List Answer), s.rst = false → s.phase ≠ .idle → s.busyWf = true →
    step { s with answers := .late :: as } = step { s with answers := as }) ∧
  (∀ (s : State) (as : List Answer), s.rst = false → s.phase = .idle → s.cmd = none →
    step { s with answers := .late :: as } = step { s with answers := as } ∧
    ∃ dropped left, as = dropped ++ left ∧ (∀ a ∈ dropped, a = .late) ∧ left.head? ≠ some .late ∧
      step { s with answers := as } = .next { s with answers := left }) ∧
  (∀ (s : State) (as : List Answer), ∃ t u, step { s with answers := .late :: as } = .next t ∧ step { s with answers := as } = .next u ∧
    (t = u ∨ t = { u with answers := .late :: u.answers }))

/-! ### X16.CFG -/

/-- With `APPLY = 0`: `OK` after the per-pin steps, no transaction, the masks keep their new values (R106, which the spec derives
from R28, R103 and R107). -/
def Obligations.CfgWithoutApplyCompletes : Prop :=
  ∀ (s : State) (flags : BitVec 96), s.readyFor .x16 →
    exec (.x16Cfg flags false) s =
      .next (State.ended { s with x16 := cfgClosedRegs flags s.x16 } [] s.answers { status := .ok, data := 0x0000, errp := none })

/-- With `APPLY = 1`: five two-byte writes in order, low byte first, the direction pair from the persistent mask and the others from this
command's accumulators (R107). -/
def Obligations.CfgWithApplyCompletes : Prop :=
  ∀ (s : State) (flags : BitVec 96) (b1 b2 b3 b4 b5 : Byte) (rest : List Answer), s.readyFor .x16 →
    s.answers = [.ok b1, .ok b2, .ok b3, .ok b4, .ok b5] ++ rest →
    exec (.x16Cfg flags true) s =
      .next (State.ended { s with x16 := cfgClosedRegs flags s.x16 }
        [ .write 0x00 [lo (cfgClosedRegs flags s.x16).directionMask, hi (cfgClosedRegs flags s.x16).directionMask],
          .write 0x04 [lo (cfgClosedAccs flags).intEn, hi (cfgClosedAccs flags).intEn],
          .write 0x06 [lo (cfgClosedAccs flags).defVal, hi (cfgClosedAccs flags).defVal],
          .write 0x08 [lo (cfgClosedAccs flags).cmp, hi (cfgClosedAccs flags).cmp],
          .write 0x0C [lo (cfgClosedAccs flags).pu, hi (cfgClosedAccs flags).pu] ]
        rest { status := .ok, data := 0x0000, errp := none })

/-- If write `k + 1` of the five fails with payload `e`: `ERR_BUS` with `ERRP = e`; the writes before it were issued, the ones after it are
not; the masks keep the values of the per-pin steps (R112). -/
def Obligations.CfgBusFailureKeepsMasks : Prop :=
  ∀ (s : State) (flags : BitVec 96) (oks : List Byte) (e : BusErr) (rest : List Answer), s.readyFor .x16 → oks.length < 5 →
    s.answers = oks.map Answer.ok ++ .err e :: rest →
    exec (.x16Cfg flags true) s =
      .next (State.ended { s with x16 := cfgClosedRegs flags s.x16 }
        (([ .write 0x00 [lo (cfgClosedRegs flags s.x16).directionMask, hi (cfgClosedRegs flags s.x16).directionMask],
            .write 0x04 [lo (cfgClosedAccs flags).intEn, hi (cfgClosedAccs flags).intEn],
            .write 0x06 [lo (cfgClosedAccs flags).defVal, hi (cfgClosedAccs flags).defVal],
            .write 0x08 [lo (cfgClosedAccs flags).cmp, hi (cfgClosedAccs flags).cmp],
            .write 0x0C [lo (cfgClosedAccs flags).pu, hi (cfgClosedAccs flags).pu] ] : List Request).take (oks.length + 1))
        rest { status := .errBus, data := 0x0000, errp := some e })

/-- The per-pin procedure of R109 and its closed form agree. -/
def Obligations.CfgFoldIsItsClosedForm : Prop :=
  ∀ (flags : BitVec 96) (r : X16Regs), cfgAll flags r = { regs := cfgClosedRegs flags r, accs := cfgClosedAccs flags }

/-- The sixteen flag fields may be processed in any order with the same result (R101, which the spec derives from R102 to R104). -/
def Obligations.CfgPinOrderDoesNotMatter : Prop :=
  ∀ (flags : BitVec 96) (r : X16Regs) (pins : List Nat), pins.Perm (List.range 16) →
    cfgPins flags pins { regs := r, accs := Accs.zero } = cfgAll flags r

/-- On a pin without `Input`, `PullUp`, `RisingInterrupt` and `FallingInterrupt` set no accumulator bit, whatever they are, and change no
register; `ActiveLow` alone has its step 1 effect (R105). -/
def Obligations.FlagsWithoutInputAreIgnored : Prop :=
  ∀ (flags : BitVec 96) (r : X16Regs) (p : Nat), p < 16 → (pinFlags flags p).input = false →
    ((cfgAll flags r).accs.pu.getLsbD p = false ∧ (cfgAll flags r).accs.intEn.getLsbD p = false ∧
      (cfgAll flags r).accs.cmp.getLsbD p = false ∧ (cfgAll flags r).accs.defVal.getLsbD p = false) ∧
    (cfgAll flags r).regs.inputMask.getLsbD p = r.inputMask.getLsbD p ∧
    (cfgAll flags r).regs.activeLowMask.getLsbD p = (r.activeLowMask.getLsbD p || (pinFlags flags p).activeLow) ∧
    ((pinFlags flags p).output = false →
      (cfgAll flags r).regs.outputMask.getLsbD p = r.outputMask.getLsbD p ∧
      (cfgAll flags r).regs.directionMask.getLsbD p = r.directionMask.getLsbD p)

/-- Issuing the same `X16.CFG` again changes no register and sends the same accumulators (R249). -/
def Obligations.RepeatedCfgChangesNothing : Prop :=
  ∀ (flags : BitVec 96) (r : X16Regs), cfgAll flags (cfgAll flags r).regs = cfgAll flags r

/-- Without the reset input no step clears a bit of `inputMask`, `outputMask` or `activeLowMask`, or sets a bit of `directionMask`
(R23, R24, R25, R26). -/
def Obligations.ConfigurationOnlyAccumulates : Prop :=
  ∀ s t : State, s.rst = false → step s = .next t →
    s.x16.inputMask &&& ~~~t.x16.inputMask = 0 ∧ s.x16.outputMask &&& ~~~t.x16.outputMask = 0 ∧
    s.x16.activeLowMask &&& ~~~t.x16.activeLowMask = 0 ∧ t.x16.directionMask &&& ~~~s.x16.directionMask = 0

/-! ### X16.RD and X16.RDPIN -/

/-- `X16.RD`: each half with a mask bit is selected and read, port A first; the bytes read, `chip`, are inverted where active-low and masked by
`MASK` and `inputMask` (R122); a half without a mask bit has no transaction (R123). -/
def Obligations.RdCompletes : Prop :=
  ∀ (s : State) (mask chip : Mask16) (x y : Byte) (rest : List Answer), s.readyFor .x16 →
    s.answers = (if lo mask = 0 then [] else [.ok x, .ok (lo chip)]) ++ (if hi mask = 0 then [] else [.ok y, .ok (hi chip)]) ++ rest →
    exec (.x16Rd mask) s =
      .next (s.ended
        ((if lo mask = 0 then [] else [.select 0x12, .read]) ++ (if hi mask = 0 then [] else [.select 0x13, .read])) rest
        { status := .ok
          data := joinHalves
            (if hi mask = 0 then 0x00 else (hi chip ^^^ hi s.x16.activeLowMask) &&& hi mask &&& hi s.x16.inputMask)
            (if lo mask = 0 then 0x00 else (lo chip ^^^ lo s.x16.activeLowMask) &&& lo mask &&& lo s.x16.inputMask)
          errp := none })

/-- Bit `p` of the result of `X16.RD` is 0 when pin `p` is not in `MASK` or not in `inputMask`; for a pin in both it is its chip bit XOR its
`activeLowMask` bit (R124). -/
def Obligations.RdResultBits : Prop :=
  ∀ (s : State) (mask chip : Mask16) (x y : Byte) (rest : List Answer), s.readyFor .x16 →
    s.answers = (if lo mask = 0 then [] else [.ok x, .ok (lo chip)]) ++ (if hi mask = 0 then [] else [.ok y, .ok (hi chip)]) ++ rest →
    ∃ t data, exec (.x16Rd mask) s = .next t ∧ t.response = some { status := .ok, data := data, errp := none } ∧
      ∀ p < 16,
        ((mask.getLsbD p = false ∨ s.x16.inputMask.getLsbD p = false) → data.getLsbD p = false) ∧
        (mask.getLsbD p = true → s.x16.inputMask.getLsbD p = true →
          data.getLsbD p = (chip.getLsbD p ^^ s.x16.activeLowMask.getLsbD p))

/-- A bus failure at any transaction of `X16.RD`: `ERR_BUS`, what was read is discarded, no later transaction, no state changes (R125, R203). -/
def Obligations.RdBusFailureChangesNothing : Prop :=
  ∀ (s : State) (mask : Mask16) (oks : List Byte) (e : BusErr) (rest : List Answer), s.readyFor .x16 →
    oks.length <
      (((if lo mask = 0 then [] else [.select 0x12, .read]) ++ (if hi mask = 0 then [] else [.select 0x13, .read])) : List Request).length →
    s.answers = oks.map Answer.ok ++ .err e :: rest →
    exec (.x16Rd mask) s =
      .next (s.ended
        ((((if lo mask = 0 then [] else [.select 0x12, .read]) ++ (if hi mask = 0 then [] else [.select 0x13, .read])) :
          List Request).take (oks.length + 1))
        rest { status := .errBus, data := 0x0000, errp := some e })

/-- `X16.RDPIN` (R126): `ERR_DIR` before any transaction when the pin's `directionMask` bit is 0; else its port alone is selected and read, and
`DATA` is the pin's bit, inverted where active-low; `ERR_BUS` from either transaction. No register changes. -/
def Obligations.RdPinCompletes : Prop :=
  ∀ (s : State) (pin : BitVec 4), s.readyFor .x16 →
    (s.x16.directionMask.getLsbD pin.toNat = false →
      exec (.x16RdPin pin) s = .next (s.ended [] s.answers { status := .errDir, data := 0xFFFF, errp := none })) ∧
    (s.x16.directionMask.getLsbD pin.toNat = true →
      (∀ (x b : Byte) (rest : List Answer), s.answers = .ok x :: .ok b :: rest →
        exec (.x16RdPin pin) s =
          .next (s.ended [.select (0x12 + (pin.extractLsb' 3 1).zeroExtend 8), .read] rest
            { status := .ok
              data :=
                if (b ^^^ (if pin.getLsbD 3 then hi s.x16.activeLowMask else lo s.x16.activeLowMask)).getLsbD (pin.toNat % 8)
                then 0x0001 else 0x0000
              errp := none })) ∧
      (∀ (e : BusErr) (rest : List Answer), s.answers = .err e :: rest →
        exec (.x16RdPin pin) s =
          .next (s.ended [.select (0x12 + (pin.extractLsb' 3 1).zeroExtend 8)] rest
            { status := .errBus, data := 0x0000, errp := some e })) ∧
      (∀ (x : Byte) (e : BusErr) (rest : List Answer), s.answers = .ok x :: .err e :: rest →
        exec (.x16RdPin pin) s =
          .next (s.ended [.select (0x12 + (pin.extractLsb' 3 1).zeroExtend 8), .read] rest
            { status := .errBus, data := 0x0000, errp := some e })))

/-! ### X16.WR and X16.WRPIN -/

/-- `X16.WR`: the mask is restricted to `outputMask` to give `m`; the halves `m` touches are written, port A first, inverted where active-low
(R141, R143); then `outputCache` holds the merged value before inversion (R142). -/
def Obligations.WrCompletes : Prop :=
  ∀ (s : State) (mask val m new : Mask16) (x y : Byte) (rest : List Answer), s.readyFor .x16 →
    m = mask &&& s.x16.outputMask → new = (s.x16.outputCache &&& ~~~m) ||| (val &&& m) →
    s.answers = (if lo m = 0 then [] else [.ok x]) ++ (if hi m = 0 then [] else [.ok y]) ++ rest →
    exec (.x16Wr mask val) s =
      .next (State.ended { s with x16 := { s.x16 with outputCache := new } }
        ((if lo m = 0 then [] else [.write 0x12 [lo new ^^^ lo s.x16.activeLowMask]])
          ++ (if hi m = 0 then [] else [.write 0x13 [hi new ^^^ hi s.x16.activeLowMask]]))
        rest { status := .ok, data := 0x0000, errp := none })

/-- A port write of `X16.WR` that fails: `ERR_BUS` with its payload, no write after it, and `outputCache` holds its old value or `new`: the free
value `Config.failedWriteTakesNew`, drawn anew at each failure (R144, notes/assumptions/8.md). -/
def Obligations.WrBusFailureDrawsTheCache : Prop :=
  ∀ (s : State) (mask val m new : Mask16) (oks : List Byte) (e : BusErr) (rest : List Answer), s.readyFor .x16 →
    m = mask &&& s.x16.outputMask → new = (s.x16.outputCache &&& ~~~m) ||| (val &&& m) →
    oks.length <
      (((if lo m = 0 then [] else [.write 0x12 [lo new ^^^ lo s.x16.activeLowMask]])
        ++ (if hi m = 0 then [] else [.write 0x13 [hi new ^^^ hi s.x16.activeLowMask]])) : List Request).length →
    s.answers = oks.map Answer.ok ++ .err e :: rest →
    exec (.x16Wr mask val) s =
      .next (State.ended
        { s with
          x16 := { s.x16 with outputCache := if Config.failedWriteTakesNew s.draws then new else s.x16.outputCache }
          draws := s.draws + 1 }
        ((((if lo m = 0 then [] else [.write 0x12 [lo new ^^^ lo s.x16.activeLowMask]])
          ++ (if hi m = 0 then [] else [.write 0x13 [hi new ^^^ hi s.x16.activeLowMask]])) : List Request).take (oks.length + 1))
        rest { status := .errBus, data := 0x0000, errp := some e })

/-- `X16.WRPIN` (R146): `ERR_DIR` before any transaction when the pin's `outputMask` bit is 0; else the pin's port alone is written, inverted
where active-low, and `outputCache` holds the new value; on `ERR_BUS` the cache is the free value of R144. -/
def Obligations.WrPinCompletes : Prop :=
  ∀ (s : State) (pin : BitVec 4) (value : Bool) (new : Mask16), s.readyFor .x16 →
    new = (if value then s.x16.outputCache ||| BitVec.twoPow 16 pin.toNat else s.x16.outputCache &&& ~~~BitVec.twoPow 16 pin.toNat) →
    (s.x16.outputMask.getLsbD pin.toNat = false →
      exec (.x16WrPin pin value) s = .next (s.ended [] s.answers { status := .errDir, data := 0xFFFF, errp := none })) ∧
    (s.x16.outputMask.getLsbD pin.toNat = true →
      (∀ (x : Byte) (rest : List Answer), s.answers = .ok x :: rest →
        exec (.x16WrPin pin value) s =
          .next (State.ended { s with x16 := { s.x16 with outputCache := new } }
            [if pin.getLsbD 3 then .write 0x13 [hi new ^^^ hi s.x16.activeLowMask] else .write 0x12 [lo new ^^^ lo s.x16.activeLowMask]]
            rest { status := .ok, data := 0x0000, errp := none })) ∧
      (∀ (e : BusErr) (rest : List Answer), s.answers = .err e :: rest →
        exec (.x16WrPin pin value) s =
          .next (State.ended
            { s with
              x16 := { s.x16 with outputCache := if Config.failedWriteTakesNew s.draws then new else s.x16.outputCache }
              draws := s.draws + 1 }
            [if pin.getLsbD 3 then .write 0x13 [hi new ^^^ hi s.x16.activeLowMask] else .write 0x12 [lo new ^^^ lo s.x16.activeLowMask]]
            rest { status := .errBus, data := 0x0000, errp := some e })))

/-- On an output pin, once its write is answered, `X16.WRPIN` is `X16.WR` with `MASK = bit16(p)` and `VAL = zext_16(v) << p` (R146). -/
def Obligations.WrPinIsWrOfOneBit : Prop :=
  ∀ (s : State) (pin : BitVec 4) (value : Bool) (a : Answer) (rest : List Answer), s.readyFor .x16 →
    s.x16.outputMask.getLsbD pin.toNat = true → s.answers = a :: rest → a ≠ .late →
    exec (.x16WrPin pin value) s =
      exec (.x16Wr (BitVec.twoPow 16 pin.toNat) ((BitVec.ofBool value).zeroExtend 16 <<< pin.toNat)) s

/-- Where `directionMask` is the complement of `outputMask`, exactly one of `X16.RDPIN` and `X16.WRPIN` answers `ERR_DIR` for a pin (R147). -/
def Obligations.SinglePinTestsAreComplementary : Prop :=
  ∀ (s : State) (pin : BitVec 4) (value : Bool), s.readyFor .x16 → s.x16.coherent = true →
    ((exec (.x16RdPin pin) s = .next (s.ended [] s.answers { status := .errDir, data := 0xFFFF, errp := none })) ↔
      ¬ (exec (.x16WrPin pin value) s = .next (s.ended [] s.answers { status := .errDir, data := 0xFFFF, errp := none })))

/-- Re-issuing an `X16.WR` that the bus failed sends the same bytes, and leaves the same `outputCache` when it completes, whichever value the
draw left in `outputCache` (R249). -/
def Obligations.ReissuedWrSendsTheSameBytes : Prop :=
  ∀ (s t u v : State) (mask val : Mask16) (e : BusErr) (as : List Answer), s.readyFor .x16 →
    exec (.x16Wr mask val) s = .next t → t.response = some { status := .errBus, data := 0x0000, errp := some e } →
    exec (.x16Wr mask val) { s with answers := as } = .next u → exec (.x16Wr mask val) { t with answers := as } = .next v →
    (∃ sent, u.trace = s.trace ++ sent ∧ v.trace = t.trace ++ sent) ∧ u.phase = v.phase ∧ u.response = v.response ∧
    (u.response = some { status := .ok, data := 0x0000, errp := none } → u.x16 = v.x16)

/-! ### GXC8 -/

/-- `X8.WR` (R160, R161): `portCache` is the byte, then the byte is sent; on `ERR_BUS` `portCache` holds the new value already. -/
def Obligations.X8WrCompletes : Prop :=
  ∀ (s : State) (val : Byte) (rest : List Answer), s.readyFor .x8 →
    (∀ x, s.answers = .ok x :: rest →
      exec (.x8Wr val) s =
        .next (State.ended { s with x8 := { s.x8 with portCache := val } } [.write val []] rest
          { status := .ok, data := 0x0000, errp := none })) ∧
    (∀ e, s.answers = .err e :: rest →
      exec (.x8Wr val) s =
        .next (State.ended { s with x8 := { s.x8 with portCache := val } } [.write val []] rest
          { status := .errBus, data := 0x0000, errp := some e }))

/-- `X8.WRPIN` (R162): bit `PIN` of `portCache` set or cleared, the whole byte sent; `ERR_BUS` from the write, with the bit changed. -/
def Obligations.X8WrPinCompletes : Prop :=
  ∀ (s : State) (pin : BitVec 3) (value : Bool) (new : Byte) (rest : List Answer), s.readyFor .x8 →
    new = (if value then s.x8.portCache ||| BitVec.twoPow 8 pin.toNat else s.x8.portCache &&& ~~~BitVec.twoPow 8 pin.toNat) →
    (∀ x, s.answers = .ok x :: rest →
      exec (.x8WrPin pin value) s =
        .next (State.ended { s with x8 := { s.x8 with portCache := new } } [.write new []] rest
          { status := .ok, data := 0x0000, errp := none })) ∧
    (∀ e, s.answers = .err e :: rest →
      exec (.x8WrPin pin value) s =
        .next (State.ended { s with x8 := { s.x8 with portCache := new } } [.write new []] rest
          { status := .errBus, data := 0x0000, errp := some e }))

/-- `X8.TGL` (R164): bit `PIN` of `portCache` flipped, the whole byte sent; `ERR_BUS` from the write, with the bit flipped. -/
def Obligations.X8TglCompletes : Prop :=
  ∀ (s : State) (pin : BitVec 3) (rest : List Answer), s.readyFor .x8 →
    (∀ x, s.answers = .ok x :: rest →
      exec (.x8Tgl pin) s =
        .next (State.ended { s with x8 := { s.x8 with portCache := s.x8.portCache ^^^ BitVec.twoPow 8 pin.toNat } }
          [.write (s.x8.portCache ^^^ BitVec.twoPow 8 pin.toNat) []] rest { status := .ok, data := 0x0000, errp := none })) ∧
    (∀ e, s.answers = .err e :: rest →
      exec (.x8Tgl pin) s =
        .next (State.ended { s with x8 := { s.x8 with portCache := s.x8.portCache ^^^ BitVec.twoPow 8 pin.toNat } }
          [.write (s.x8.portCache ^^^ BitVec.twoPow 8 pin.toNat) []] rest { status := .errBus, data := 0x0000, errp := some e }))

/-- Two `X8.TGL` of one pin restore `portCache`, whether or not the bus completes the writes, and change exactly that pin's bit in between
(R165). -/
def Obligations.TwoTogglesRestoreThePort : Prop :=
  ∀ (s : State) (pin : BitVec 3) (a1 a2 : Answer) (rest : List Answer), s.readyFor .x8 → s.answers = a1 :: a2 :: rest →
    a1 ≠ .late → a2 ≠ .late →
    ∃ t u, exec (.x8Tgl pin) s = .next t ∧ exec (.x8Tgl pin) t = .next u ∧ u.x8 = s.x8 ∧
      ∀ p < 8, t.x8.portCache.getLsbD p = (s.x8.portCache.getLsbD p ^^ decide (p = pin.toNat))

/-- `X8.RD` (R166): one read; on success `pinCache` and `DATA` are the byte; on `ERR_BUS` nothing is written (R167). -/
def Obligations.X8RdCompletes : Prop :=
  ∀ (s : State) (rest : List Answer), s.readyFor .x8 →
    (∀ b, s.answers = .ok b :: rest →
      exec .x8Rd s =
        .next (State.ended { s with x8 := { s.x8 with pinCache := some b } } [.read] rest
          { status := .ok, data := b.zeroExtend 16, errp := none })) ∧
    (∀ e, s.answers = .err e :: rest →
      exec .x8Rd s = .next (s.ended [.read] rest { status := .errBus, data := 0x0000, errp := some e }))

/-- `X8.RDPIN` (R168): one read; on success `pinCache` is the whole byte and `DATA` its bit `PIN`; on `ERR_BUS` nothing is written. -/
def Obligations.X8RdPinCompletes : Prop :=
  ∀ (s : State) (pin : BitVec 3) (rest : List Answer), s.readyFor .x8 →
    (∀ b, s.answers = .ok b :: rest →
      exec (.x8RdPin pin) s =
        .next (State.ended { s with x8 := { s.x8 with pinCache := some b } } [.read] rest
          { status := .ok, data := if b.getLsbD pin.toNat then 0x0001 else 0x0000, errp := none })) ∧
    (∀ e, s.answers = .err e :: rest →
      exec (.x8RdPin pin) s = .next (s.ended [.read] rest { status := .errBus, data := 0x0000, errp := some e }))

/-- `X8.CLEANUP` (R171): 0xFF is sent; `portCache` becomes 0xFF exactly when `X8_CLEANUP_CACHE = set_ff`, before the send. -/
def Obligations.X8CleanupCompletes : Prop :=
  ∀ (s : State) (rest : List Answer) (cache : Byte), s.readyFor .x8 →
    (Config.x8CleanupCache = .setFF → cache = 0xFF) → (Config.x8CleanupCache = .keep → cache = s.x8.portCache) →
    (∀ x, s.answers = .ok x :: rest →
      exec .x8Cleanup s =
        .next (State.ended { s with x8 := { s.x8 with portCache := cache } } [.write 0xFF []] rest
          { status := .ok, data := 0x0000, errp := none })) ∧
    (∀ e, s.answers = .err e :: rest →
      exec .x8Cleanup s =
        .next (State.ended { s with x8 := { s.x8 with portCache := cache } } [.write 0xFF []] rest
          { status := .errBus, data := 0x0000, errp := some e }))

/-! ### Responses and the bus -/

/-- Before any completion has come, a command that an idle instance of its variant accepts either ends at once with a response and no
transaction, or has issued exactly its first request and awaits its completion in `BUSY` with no response (R36, R52). That the
index of `BUSY` is 0 then is the model's reading of it (notes/assumptions/11.md), and that no response stands on the port in `BUSY` is the
model's reading too (notes/assumptions/12.md). -/
def Obligations.FirstRequestIsAwaited : Prop :=
  ∀ (i : Instr) (s : State), s.readyFor i.variant → s.answers = [] →
    ∃ t, exec i s = .next t ∧
      ((t.phase = .idle ∧ t.response.isSome = true ∧ t.trace = s.trace) ∨
        ∃ r b, t.phase = .busy b ∧ b.word = encode i ∧ b.index = 0 ∧ b.bytes = [] ∧ t.response = none ∧
          t.trace = s.trace ++ [r] ∧ t.outstanding = some r)

/-- A step of an idle instance with a word on the command port takes the word; a step in `BUSY` leaves the port alone; and each either delivers
one response and is `IDLE`, or is in `BUSY` with no response. `DATA` with each error is R80's; that `ERRP` is absent without `ERR_BUS`
(notes/assumptions/13.md) and that no response stands on the port in `BUSY` (notes/assumptions/12.md) are the model's choices. -/
def Obligations.OneResponsePerAcceptedCommand : Prop :=
  (∀ (s : State) (w : Word), s.rst = false → s.phase = .idle → s.cmd = some w →
    ∃ t, step s = .next t ∧ t.cmd = none ∧
      ((t.phase = .idle ∧ ∃ r, t.response = some r ∧ r.fieldsByStatus = true) ∨ ((∃ b, t.phase = .busy b) ∧ t.response = none))) ∧
  (∀ (s : State) (b : Busy), s.rst = false → s.phase = .busy b → s.busyWf = true →
    ∃ t, step s = .next t ∧ t.cmd = s.cmd ∧
      ((t.phase = .idle ∧ ∃ r, t.response = some r ∧ r.fieldsByStatus = true) ∨ ((∃ b', t.phase = .busy b') ∧ t.response = none)))

/-- Which command can end with which error (R204): a legal command of the instance's variant never ends with `ERR_ILLEGAL`; `ERR_DIR` comes from
`X16.RDPIN` and `X16.WRPIN` only; `ERR_BUS` never from a command that issues no transaction, so not from `X16.CFG` without `APPLY`, `X16.RD` of no
pin or `X16.WR` of no output pin. -/
def Obligations.StatusesOfEachCommand : Prop :=
  ∀ (i : Instr) (s t : State) (r : Response), s.readyFor i.variant → exec i s = .next t → t.response = some r →
    r.status ≠ .errIllegal ∧
    (r.status = .errDir → (∃ pin, i = .x16RdPin pin) ∨ ∃ pin value, i = .x16WrPin pin value) ∧
    (r.status = .errBus → t.trace ≠ s.trace ∧ (∀ flags, i ≠ .x16Cfg flags false) ∧ i ≠ .x16Rd 0x0000 ∧
      ∀ mask val, i = .x16Wr mask val → mask &&& s.x16.outputMask ≠ 0)

/-- With five completions at hand, every presented word is answered in one step: no command has more transactions (R107, R123, R253). -/
def Obligations.FiveCompletionsEndAnyCommand : Prop :=
  ∀ (s : State) (w : Word), s.rst = false → s.phase = .idle → s.cmd = some w →
    5 ≤ (s.answers.filter Answer.counts).length →
    ∃ t, step s = .next t ∧ t.phase = .idle ∧ t.response.isSome = true

/-- Giving a command its completions one batch after another is giving them all at once: the handshakes of R51 and R52 taken one at a time and
taken in one step lead to the same state. -/
def Obligations.CompletionsInBatchesAreCompletionsAtOnce : Prop :=
  ∀ (s t : State) (as later : List Answer), s.rst = false → s.busyWf = true → (s.phase = .idle → s.cmd.isSome = true) →
    step { s with answers := as } = .next t →
    (t.phase = .idle → step { s with answers := as ++ later } = .next { t with answers := t.answers ++ later }) ∧
    (t.phase ≠ .idle → step { s with answers := as ++ later } = step { t with answers := later })

/-- Every request a step puts on the bus is one the variant may issue: GXC16 writes two bytes at the A address of a configuration pair or one byte
at a port address, and selects only port addresses; GXC8 writes its port value with no data byte and never selects. The history only grows
(R55, R56, R61, R62). -/
def Obligations.OnlyAllowedRequestsAreIssued : Prop :=
  ∀ s t : State, step s = .next t → ∃ issued, t.trace = s.trace ++ issued ∧ ∀ r ∈ issued, r.allowed s.variant = true

/-! ### Invariants and frames -/

/-- Every step from a state in which the two register relations of R29 hold leads to such a state:
`directionMask == ~outputMask` and `outputCache & ~outputMask == 0`. -/
def Obligations.RegisterRelationsAreKept : Prop :=
  ∀ s t : State, s.x16.coherent = true → step s = .next t → t.x16.coherent = true

/-- Every step from a state whose `BUSY`, if it is in `BUSY`, holds a command of the instance with a transaction of its script in flight, one byte
for each read completed, and no response on the port, leads to such a state. What `BUSY` holds is R36's; that the index names the transaction
in flight (notes/assumptions/11.md) and that no response stands on the port in `BUSY` (notes/assumptions/12.md) are the model's choices. -/
def Obligations.BusyStateStaysWellFormed : Prop :=
  ∀ s t : State, s.busyWf = true → step s = .next t → t.busyWf = true

/-- No step changes the variant, and no step but a reset touches the other variant's registers (R2, R3). -/
def Obligations.VariantsShareNoState : Prop :=
  ∀ s t : State, step s = .next t →
    t.variant = s.variant ∧
    (s.rst = false → (s.variant = .x16 → t.x8 = s.x8) ∧ (s.variant = .x8 → t.x16 = s.x16)) ∧
    (s.otherIdle = true → t.otherIdle = true)

/-- The invariant holds right after reset, for both variants. -/
def Obligations.InvariantHoldsAtReset : Prop :=
  (State.resetOf .x16).inv = true ∧ (State.resetOf .x8).inv = true ∧ State.reset.inv = true

/-- Which command writes which register (R22, R32, columns "written by"): whatever comes of a command, every register outside its own is
unchanged, and so are the variant, the reset input and the command port. -/
def Obligations.CommandsWriteOnlyTheirRegisters : Prop :=
  ∀ (i : Instr) (s t : State), exec i s = .next t →
    ((∀ flags apply, i ≠ .x16Cfg flags apply) →
      t.x16.inputMask = s.x16.inputMask ∧ t.x16.outputMask = s.x16.outputMask ∧ t.x16.directionMask = s.x16.directionMask ∧
      t.x16.activeLowMask = s.x16.activeLowMask) ∧
    ((∀ mask val, i ≠ .x16Wr mask val) → (∀ pin value, i ≠ .x16WrPin pin value) →
      t.x16.outputCache = s.x16.outputCache ∧ t.draws = s.draws) ∧
    ((∀ val, i ≠ .x8Wr val) → (∀ pin value, i ≠ .x8WrPin pin value) → (∀ pin, i ≠ .x8Tgl pin) →
      (Config.x8CleanupCache = .setFF → i ≠ .x8Cleanup) → t.x8.portCache = s.x8.portCache) ∧
    (i ≠ .x8Rd → (∀ pin, i ≠ .x8RdPin pin) → t.x8.pinCache = s.x8.pinCache) ∧
    t.variant = s.variant ∧ t.rst = s.rst ∧ t.cmd = s.cmd

/-- No command reads `pinCache` (R34): two instances that differ in `pinCache` alone step alike, and differ in `pinCache` alone afterwards. -/
def Obligations.PinCacheIsNeverRead : Prop :=
  ∀ (s t : State) (p : Option Byte), step s = .next t →
    ∃ q, step (s.withPinCache p) = .next (t.withPinCache q)

/-- Reading `pinCache` faults exactly while it holds no value, else gives the value; it holds none right after reset; a successful `X8.RD` or
`X8.RDPIN` gives it the byte read; and no step without the reset input takes the value away, so after the first successful read reading it
faults no more (R34). -/
def Obligations.PinCacheReadFaultsOnlyBeforeTheFirstRead : Prop :=
  (∀ s : State, (readPinCache s = .error .pinCacheEmpty ↔ s.x8.pinCache = none) ∧
    ∀ b, readPinCache s = .ok b ↔ s.x8.pinCache = some b) ∧
  (∀ v : Variant, readPinCache (State.resetOf v) = .error .pinCacheEmpty) ∧
  (∀ (s : State) (b : Byte) (rest : List Answer), s.readyFor .x8 → s.answers = .ok b :: rest →
    (∃ t, exec .x8Rd s = .next t ∧ readPinCache t = .ok b) ∧
    ∀ pin, ∃ t, exec (.x8RdPin pin) s = .next t ∧ readPinCache t = .ok b) ∧
  ∀ s t : State, s.rst = false → s.x8.pinCache ≠ none → step s = .next t → t.x8.pinCache ≠ none

/-! ### The host's helpers -/

/-- `makePinMask` has bit `p` exactly for the arguments in 0..15 (R120). -/
def Obligations.MakePinMaskDropsOtherPins : Prop :=
  ∀ (pins : List Int) (p : Nat), (makePinMask pins).getLsbD p = decide (p < 16 ∧ (p : Int) ∈ pins)

/-- The assembler's mapping: refused when a pin is listed twice (R84); for pins below 16, each listed once, accepted, with each flag of each
pin set exactly when the mapping names it (R73). That a flag named twice for one pin is accepted as the flag once is the model's choice, and
so is that a pin above 15 is refused, which this leaves unsaid (notes/assumptions/19.md). -/
def Obligations.AssembledMappingHasTheNamedFlags : Prop :=
  (∀ entries : List (Nat × List PinConfigFlag), ¬ (entries.map Prod.fst).Nodup → asMapping entries = none) ∧
  (∀ entries : List (Nat × List PinConfigFlag), (∀ e ∈ entries, e.1 < 16) → (entries.map Prod.fst).Nodup →
    ∃ flags, asMapping entries = some flags ∧
      ∀ p < 16, ∀ f : PinConfigFlag, flags.getLsbD (6 * p + f.bit) = true ↔ ∃ e ∈ entries, e.1 = p ∧ f ∈ e.2)
end

