-- ==== Sys2Proof/Laws/State.lean ====
section
/-! SUPPORT. What each field reads after each update of the state, so that no proof unfolds a record update. -/

namespace Sys2Proof.Machine

@[simp] theorem State.setX16_variant (s : State) (r : X16Regs) : (s.setX16 r).variant = s.variant := rfl
@[simp] theorem State.setX16_x16 (s : State) (r : X16Regs) : (s.setX16 r).x16 = r := rfl
@[simp] theorem State.setX16_x8 (s : State) (r : X16Regs) : (s.setX16 r).x8 = s.x8 := rfl
@[simp] theorem State.setX16_phase (s : State) (r : X16Regs) : (s.setX16 r).phase = s.phase := rfl
@[simp] theorem State.setX16_response (s : State) (r : X16Regs) : (s.setX16 r).response = s.response := rfl
@[simp] theorem State.setX16_rst (s : State) (r : X16Regs) : (s.setX16 r).rst = s.rst := rfl
@[simp] theorem State.setX16_cmd (s : State) (r : X16Regs) : (s.setX16 r).cmd = s.cmd := rfl
@[simp] theorem State.setX16_answers (s : State) (r : X16Regs) : (s.setX16 r).answers = s.answers := rfl
@[simp] theorem State.setX16_trace (s : State) (r : X16Regs) : (s.setX16 r).trace = s.trace := rfl
@[simp] theorem State.setX16_draws (s : State) (r : X16Regs) : (s.setX16 r).draws = s.draws := rfl

@[simp] theorem State.setX8_variant (s : State) (r : X8Regs) : (s.setX8 r).variant = s.variant := rfl
@[simp] theorem State.setX8_x16 (s : State) (r : X8Regs) : (s.setX8 r).x16 = s.x16 := rfl
@[simp] theorem State.setX8_x8 (s : State) (r : X8Regs) : (s.setX8 r).x8 = r := rfl
@[simp] theorem State.setX8_phase (s : State) (r : X8Regs) : (s.setX8 r).phase = s.phase := rfl
@[simp] theorem State.setX8_response (s : State) (r : X8Regs) : (s.setX8 r).response = s.response := rfl
@[simp] theorem State.setX8_rst (s : State) (r : X8Regs) : (s.setX8 r).rst = s.rst := rfl
@[simp] theorem State.setX8_cmd (s : State) (r : X8Regs) : (s.setX8 r).cmd = s.cmd := rfl
@[simp] theorem State.setX8_answers (s : State) (r : X8Regs) : (s.setX8 r).answers = s.answers := rfl
@[simp] theorem State.setX8_trace (s : State) (r : X8Regs) : (s.setX8 r).trace = s.trace := rfl
@[simp] theorem State.setX8_draws (s : State) (r : X8Regs) : (s.setX8 r).draws = s.draws := rfl

@[simp] theorem State.setOutputCache_variant (s : State) (v : Mask16) : (s.setOutputCache v).variant = s.variant := rfl
@[simp] theorem State.setOutputCache_x16 (s : State) (v : Mask16) : (s.setOutputCache v).x16 = { s.x16 with outputCache := v } := rfl
@[simp] theorem State.setOutputCache_x8 (s : State) (v : Mask16) : (s.setOutputCache v).x8 = s.x8 := rfl
@[simp] theorem State.setOutputCache_phase (s : State) (v : Mask16) : (s.setOutputCache v).phase = s.phase := rfl
@[simp] theorem State.setOutputCache_response (s : State) (v : Mask16) : (s.setOutputCache v).response = s.response := rfl
@[simp] theorem State.setOutputCache_rst (s : State) (v : Mask16) : (s.setOutputCache v).rst = s.rst := rfl
@[simp] theorem State.setOutputCache_cmd (s : State) (v : Mask16) : (s.setOutputCache v).cmd = s.cmd := rfl
@[simp] theorem State.setOutputCache_answers (s : State) (v : Mask16) : (s.setOutputCache v).answers = s.answers := rfl
@[simp] theorem State.setOutputCache_trace (s : State) (v : Mask16) : (s.setOutputCache v).trace = s.trace := rfl
@[simp] theorem State.setOutputCache_draws (s : State) (v : Mask16) : (s.setOutputCache v).draws = s.draws := rfl

@[simp] theorem State.setPortCache_variant (s : State) (v : Byte) : (s.setPortCache v).variant = s.variant := rfl
@[simp] theorem State.setPortCache_x16 (s : State) (v : Byte) : (s.setPortCache v).x16 = s.x16 := rfl
@[simp] theorem State.setPortCache_x8 (s : State) (v : Byte) : (s.setPortCache v).x8 = { s.x8 with portCache := v } := rfl
@[simp] theorem State.setPortCache_phase (s : State) (v : Byte) : (s.setPortCache v).phase = s.phase := rfl
@[simp] theorem State.setPortCache_response (s : State) (v : Byte) : (s.setPortCache v).response = s.response := rfl
@[simp] theorem State.setPortCache_rst (s : State) (v : Byte) : (s.setPortCache v).rst = s.rst := rfl
@[simp] theorem State.setPortCache_cmd (s : State) (v : Byte) : (s.setPortCache v).cmd = s.cmd := rfl
@[simp] theorem State.setPortCache_answers (s : State) (v : Byte) : (s.setPortCache v).answers = s.answers := rfl
@[simp] theorem State.setPortCache_trace (s : State) (v : Byte) : (s.setPortCache v).trace = s.trace := rfl
@[simp] theorem State.setPortCache_draws (s : State) (v : Byte) : (s.setPortCache v).draws = s.draws := rfl

@[simp] theorem State.setPinCache_variant (s : State) (v : Byte) : (s.setPinCache v).variant = s.variant := rfl
@[simp] theorem State.setPinCache_x16 (s : State) (v : Byte) : (s.setPinCache v).x16 = s.x16 := rfl
@[simp] theorem State.setPinCache_x8 (s : State) (v : Byte) : (s.setPinCache v).x8 = { s.x8 with pinCache := some v } := rfl
@[simp] theorem State.setPinCache_phase (s : State) (v : Byte) : (s.setPinCache v).phase = s.phase := rfl
@[simp] theorem State.setPinCache_response (s : State) (v : Byte) : (s.setPinCache v).response = s.response := rfl
@[simp] theorem State.setPinCache_rst (s : State) (v : Byte) : (s.setPinCache v).rst = s.rst := rfl
@[simp] theorem State.setPinCache_cmd (s : State) (v : Byte) : (s.setPinCache v).cmd = s.cmd := rfl
@[simp] theorem State.setPinCache_answers (s : State) (v : Byte) : (s.setPinCache v).answers = s.answers := rfl
@[simp] theorem State.setPinCache_trace (s : State) (v : Byte) : (s.setPinCache v).trace = s.trace := rfl
@[simp] theorem State.setPinCache_draws (s : State) (v : Byte) : (s.setPinCache v).draws = s.draws := rfl

@[simp] theorem State.setPhase_variant (s : State) (p : Phase) : (s.setPhase p).variant = s.variant := rfl
@[simp] theorem State.setPhase_x16 (s : State) (p : Phase) : (s.setPhase p).x16 = s.x16 := rfl
@[simp] theorem State.setPhase_x8 (s : State) (p : Phase) : (s.setPhase p).x8 = s.x8 := rfl
@[simp] theorem State.setPhase_phase (s : State) (p : Phase) : (s.setPhase p).phase = p := rfl
@[simp] theorem State.setPhase_response (s : State) (p : Phase) : (s.setPhase p).response = s.response := rfl
@[simp] theorem State.setPhase_rst (s : State) (p : Phase) : (s.setPhase p).rst = s.rst := rfl
@[simp] theorem State.setPhase_cmd (s : State) (p : Phase) : (s.setPhase p).cmd = s.cmd := rfl
@[simp] theorem State.setPhase_answers (s : State) (p : Phase) : (s.setPhase p).answers = s.answers := rfl
@[simp] theorem State.setPhase_trace (s : State) (p : Phase) : (s.setPhase p).trace = s.trace := rfl
@[simp] theorem State.setPhase_draws (s : State) (p : Phase) : (s.setPhase p).draws = s.draws := rfl

@[simp] theorem State.setAnswers_variant (s : State) (as : List Answer) : (s.setAnswers as).variant = s.variant := rfl
@[simp] theorem State.setAnswers_x16 (s : State) (as : List Answer) : (s.setAnswers as).x16 = s.x16 := rfl
@[simp] theorem State.setAnswers_x8 (s : State) (as : List Answer) : (s.setAnswers as).x8 = s.x8 := rfl
@[simp] theorem State.setAnswers_phase (s : State) (as : List Answer) : (s.setAnswers as).phase = s.phase := rfl
@[simp] theorem State.setAnswers_response (s : State) (as : List Answer) : (s.setAnswers as).response = s.response := rfl
@[simp] theorem State.setAnswers_rst (s : State) (as : List Answer) : (s.setAnswers as).rst = s.rst := rfl
@[simp] theorem State.setAnswers_cmd (s : State) (as : List Answer) : (s.setAnswers as).cmd = s.cmd := rfl
@[simp] theorem State.setAnswers_answers (s : State) (as : List Answer) : (s.setAnswers as).answers = as := rfl
@[simp] theorem State.setAnswers_trace (s : State) (as : List Answer) : (s.setAnswers as).trace = s.trace := rfl
@[simp] theorem State.setAnswers_draws (s : State) (as : List Answer) : (s.setAnswers as).draws = s.draws := rfl

@[simp] theorem State.takeCmd_variant (s : State) : s.takeCmd.variant = s.variant := rfl
@[simp] theorem State.takeCmd_x16 (s : State) : s.takeCmd.x16 = s.x16 := rfl
@[simp] theorem State.takeCmd_x8 (s : State) : s.takeCmd.x8 = s.x8 := rfl
@[simp] theorem State.takeCmd_phase (s : State) : s.takeCmd.phase = s.phase := rfl
@[simp] theorem State.takeCmd_response (s : State) : s.takeCmd.response = s.response := rfl
@[simp] theorem State.takeCmd_rst (s : State) : s.takeCmd.rst = s.rst := rfl
@[simp] theorem State.takeCmd_cmd (s : State) : s.takeCmd.cmd = none := rfl
@[simp] theorem State.takeCmd_answers (s : State) : s.takeCmd.answers = s.answers := rfl
@[simp] theorem State.takeCmd_trace (s : State) : s.takeCmd.trace = s.trace := rfl
@[simp] theorem State.takeCmd_draws (s : State) : s.takeCmd.draws = s.draws := rfl

@[simp] theorem State.issue_variant (s : State) (r : Request) : (s.issue r).variant = s.variant := rfl
@[simp] theorem State.issue_x16 (s : State) (r : Request) : (s.issue r).x16 = s.x16 := rfl
@[simp] theorem State.issue_x8 (s : State) (r : Request) : (s.issue r).x8 = s.x8 := rfl
@[simp] theorem State.issue_phase (s : State) (r : Request) : (s.issue r).phase = s.phase := rfl
@[simp] theorem State.issue_response (s : State) (r : Request) : (s.issue r).response = s.response := rfl
@[simp] theorem State.issue_rst (s : State) (r : Request) : (s.issue r).rst = s.rst := rfl
@[simp] theorem State.issue_cmd (s : State) (r : Request) : (s.issue r).cmd = s.cmd := rfl
@[simp] theorem State.issue_answers (s : State) (r : Request) : (s.issue r).answers = s.answers := rfl
@[simp] theorem State.issue_trace (s : State) (r : Request) : (s.issue r).trace = s.trace ++ [r] := rfl
@[simp] theorem State.issue_draws (s : State) (r : Request) : (s.issue r).draws = s.draws := rfl

@[simp] theorem State.useDraw_variant (s : State) : s.useDraw.variant = s.variant := rfl
@[simp] theorem State.useDraw_x16 (s : State) : s.useDraw.x16 = s.x16 := rfl
@[simp] theorem State.useDraw_x8 (s : State) : s.useDraw.x8 = s.x8 := rfl
@[simp] theorem State.useDraw_phase (s : State) : s.useDraw.phase = s.phase := rfl
@[simp] theorem State.useDraw_response (s : State) : s.useDraw.response = s.response := rfl
@[simp] theorem State.useDraw_rst (s : State) : s.useDraw.rst = s.rst := rfl
@[simp] theorem State.useDraw_cmd (s : State) : s.useDraw.cmd = s.cmd := rfl
@[simp] theorem State.useDraw_answers (s : State) : s.useDraw.answers = s.answers := rfl
@[simp] theorem State.useDraw_trace (s : State) : s.useDraw.trace = s.trace := rfl
@[simp] theorem State.useDraw_draws (s : State) : s.useDraw.draws = s.draws + 1 := rfl

@[simp] theorem State.endCommand_variant (s : State) (r : Response) : (s.endCommand r).variant = s.variant := rfl
@[simp] theorem State.endCommand_x16 (s : State) (r : Response) : (s.endCommand r).x16 = s.x16 := rfl
@[simp] theorem State.endCommand_x8 (s : State) (r : Response) : (s.endCommand r).x8 = s.x8 := rfl
@[simp] theorem State.endCommand_phase (s : State) (r : Response) : (s.endCommand r).phase = .idle := rfl
@[simp] theorem State.endCommand_response (s : State) (r : Response) : (s.endCommand r).response = some r := rfl
@[simp] theorem State.endCommand_rst (s : State) (r : Response) : (s.endCommand r).rst = s.rst := rfl
@[simp] theorem State.endCommand_cmd (s : State) (r : Response) : (s.endCommand r).cmd = s.cmd := rfl
@[simp] theorem State.endCommand_answers (s : State) (r : Response) : (s.endCommand r).answers = s.answers := rfl
@[simp] theorem State.endCommand_trace (s : State) (r : Response) : (s.endCommand r).trace = s.trace := rfl
@[simp] theorem State.endCommand_draws (s : State) (r : Response) : (s.endCommand r).draws = s.draws := rfl

@[simp] theorem State.begin_variant (s : State) (w : Word) : (s.begin w).variant = s.variant := rfl
@[simp] theorem State.begin_x16 (s : State) (w : Word) : (s.begin w).x16 = s.x16 := rfl
@[simp] theorem State.begin_x8 (s : State) (w : Word) : (s.begin w).x8 = s.x8 := rfl
@[simp] theorem State.begin_phase (s : State) (w : Word) : (s.begin w).phase = .busy (Busy.start w) := rfl
@[simp] theorem State.begin_response (s : State) (w : Word) : (s.begin w).response = none := rfl
@[simp] theorem State.begin_rst (s : State) (w : Word) : (s.begin w).rst = s.rst := rfl
@[simp] theorem State.begin_cmd (s : State) (w : Word) : (s.begin w).cmd = s.cmd := rfl
@[simp] theorem State.begin_answers (s : State) (w : Word) : (s.begin w).answers = s.answers := rfl
@[simp] theorem State.begin_trace (s : State) (w : Word) : (s.begin w).trace = s.trace := rfl
@[simp] theorem State.begin_draws (s : State) (w : Word) : (s.begin w).draws = s.draws := rfl

@[simp] theorem State.deliver_variant (s : State) (a : Answer) : (s.deliver a).variant = s.variant := rfl
@[simp] theorem State.deliver_x16 (s : State) (a : Answer) : (s.deliver a).x16 = s.x16 := rfl
@[simp] theorem State.deliver_x8 (s : State) (a : Answer) : (s.deliver a).x8 = s.x8 := rfl
@[simp] theorem State.deliver_phase (s : State) (a : Answer) : (s.deliver a).phase = s.phase := rfl
@[simp] theorem State.deliver_response (s : State) (a : Answer) : (s.deliver a).response = s.response := rfl
@[simp] theorem State.deliver_rst (s : State) (a : Answer) : (s.deliver a).rst = s.rst := rfl
@[simp] theorem State.deliver_cmd (s : State) (a : Answer) : (s.deliver a).cmd = s.cmd := rfl
@[simp] theorem State.deliver_answers (s : State) (a : Answer) : (s.deliver a).answers = s.answers ++ [a] := rfl
@[simp] theorem State.deliver_trace (s : State) (a : Answer) : (s.deliver a).trace = s.trace := rfl
@[simp] theorem State.deliver_draws (s : State) (a : Answer) : (s.deliver a).draws = s.draws := rfl

@[simp] theorem State.assertReset_variant (s : State) : s.assertReset.variant = s.variant := rfl
@[simp] theorem State.assertReset_x16 (s : State) : s.assertReset.x16 = s.x16 := rfl
@[simp] theorem State.assertReset_x8 (s : State) : s.assertReset.x8 = s.x8 := rfl
@[simp] theorem State.assertReset_phase (s : State) : s.assertReset.phase = s.phase := rfl
@[simp] theorem State.assertReset_response (s : State) : s.assertReset.response = s.response := rfl
@[simp] theorem State.assertReset_rst (s : State) : s.assertReset.rst = true := rfl
@[simp] theorem State.assertReset_cmd (s : State) : s.assertReset.cmd = s.cmd := rfl
@[simp] theorem State.assertReset_answers (s : State) : s.assertReset.answers = s.answers := rfl
@[simp] theorem State.assertReset_trace (s : State) : s.assertReset.trace = s.trace := rfl
@[simp] theorem State.assertReset_draws (s : State) : s.assertReset.draws = s.draws := rfl

@[simp] theorem State.ended_variant (s : State) (rs : List Request) (as : List Answer) (r : Response) : (s.ended rs as r).variant = s.variant := rfl
@[simp] theorem State.ended_x16 (s : State) (rs : List Request) (as : List Answer) (r : Response) : (s.ended rs as r).x16 = s.x16 := rfl
@[simp] theorem State.ended_x8 (s : State) (rs : List Request) (as : List Answer) (r : Response) : (s.ended rs as r).x8 = s.x8 := rfl
@[simp] theorem State.ended_phase (s : State) (rs : List Request) (as : List Answer) (r : Response) : (s.ended rs as r).phase = .idle := rfl
@[simp] theorem State.ended_response (s : State) (rs : List Request) (as : List Answer) (r : Response) : (s.ended rs as r).response = some r := rfl
@[simp] theorem State.ended_rst (s : State) (rs : List Request) (as : List Answer) (r : Response) : (s.ended rs as r).rst = s.rst := rfl
@[simp] theorem State.ended_cmd (s : State) (rs : List Request) (as : List Answer) (r : Response) : (s.ended rs as r).cmd = s.cmd := rfl
@[simp] theorem State.ended_answers (s : State) (rs : List Request) (as : List Answer) (r : Response) : (s.ended rs as r).answers = as := rfl
@[simp] theorem State.ended_trace (s : State) (rs : List Request) (as : List Answer) (r : Response) : (s.ended rs as r).trace = s.trace ++ rs := rfl
@[simp] theorem State.ended_draws (s : State) (rs : List Request) (as : List Answer) (r : Response) : (s.ended rs as r).draws = s.draws := rfl

end Sys2Proof.Machine
end

