-- ==== Sys2Proof/Laws/Ops.lean ====
section
/-! SUPPORT. For each shared operation, what it can do: the bus handshakes, accepting a command, ending it, waiting and reset. -/

namespace Sys2Proof.Machine

/-! ### Draws -/

@[simp] theorem nextAnswer_nil : nextAnswer [] = none := rfl
@[simp] theorem nextAnswer_late (as : List Answer) : nextAnswer (.late :: as) = nextAnswer as := rfl
@[simp] theorem nextAnswer_ok (b : Byte) (as : List Answer) : nextAnswer (.ok b :: as) = some (.ok b, as) := rfl
@[simp] theorem nextAnswer_err (e : BusErr) (as : List Answer) : nextAnswer (.err e :: as) = some (.error e, as) := rfl

/-- No completion has come exactly when every draw listed is a late one. -/
theorem nextAnswer_eq_none_iff (as : List Answer) : nextAnswer as = none ↔ ∀ a ∈ as, a.counts = false := by
  induction as with
  | nil => simp
  | cons a as ih => cases a <;> simp [Answer.counts, ih]

/-- A completion that has come is there still when more draws follow. -/
theorem nextAnswer_append_of_some {as ys : List Answer} {c : Except BusErr Byte} {rest : List Answer}
    (h : nextAnswer as = some (c, rest)) : nextAnswer (as ++ ys) = some (c, rest ++ ys) := by
  induction as with
  | nil => simp at h
  | cons a as ih =>
    cases a with
    | late => simpa using ih (by simpa using h)
    | ok b => simp at h ⊢; simp [h.1, h.2]
    | err e => simp at h ⊢; simp [h.1, h.2]

/-- Draws that are all late do not matter to the next completion. -/
theorem nextAnswer_append_of_none {as ys : List Answer} (h : nextAnswer as = none) :
    nextAnswer (as ++ ys) = nextAnswer ys := by
  induction as with
  | nil => rfl
  | cons a as ih => cases a <;> simp_all

/-! ### The bus handshakes -/

@[simp] theorem pump_nil (p : Plan) (b : Busy) (s : State) : pump p [] b s = s := rfl

/-- While no completion has come the controller waits in `BUSY`. -/
theorem pump_wait (p : Plan) (r : Request) (rest : List Request) (b : Busy) (s : State)
    (h : nextAnswer s.answers = none) : pump p (r :: rest) b s = (s.setPhase (.busy b)).setAnswers [] := by
  cases rest <;> simp [pump, h]

/-- A failed transaction ends the command. -/
theorem pump_err (p : Plan) (r : Request) (rest : List Request) (b : Busy) (s : State) {e : BusErr} {as : List Answer}
    (h : nextAnswer s.answers = some (.error e, as)) : pump p (r :: rest) b s = p.fail e (s.setAnswers as) := by
  cases rest <;> simp [pump, h]

/-- The last transaction's completion commits the command. -/
theorem pump_last (p : Plan) (r : Request) (b : Busy) (s : State) {x : Byte} {as : List Answer}
    (h : nextAnswer s.answers = some (.ok x, as)) :
    pump p [r] b s = p.commit (b.advance r x).bytes (s.setAnswers as) := by
  simp [pump, h]

/-- Any earlier completion issues the next request. -/
theorem pump_more (p : Plan) (r r' : Request) (rest : List Request) (b : Busy) (s : State) {x : Byte} {as : List Answer}
    (h : nextAnswer s.answers = some (.ok x, as)) :
    pump p (r :: r' :: rest) b s = pump p (r' :: rest) (b.advance r x) ((s.setAnswers as).issue r') := by
  conv => lhs; rw [pump]
  simp [h]

/-- What the handshakes can do, as a rule: a property `P` that survives issuing a request of the script and taking a draw gives `Q`
after waiting, committing or failing, if each of the three gives `Q` from `P`. -/
theorem pump_rule {P Q : State → Prop} (p : Plan) (script : List Request)
    (hIssue : ∀ s r, r ∈ script → P s → P (s.issue r)) (hAnswers : ∀ s as, P s → P (s.setAnswers as))
    (hWait : ∀ s b, P s → Q (s.setPhase (.busy b))) (hCommit : ∀ s bytes, P s → Q (p.commit bytes s))
    (hFail : ∀ s e, P s → Q (p.fail e s)) :
    ∀ (rs : List Request) (b : Busy) (s : State), rs ≠ [] → (∀ r ∈ rs, r ∈ script) → P s → Q (pump p rs b s) := by
  intro rs
  induction rs with
  | nil => intro b s h; exact absurd rfl h
  | cons r rest ih =>
    intro b s _ hmem hP
    cases hn : nextAnswer s.answers with
    | none =>
      rw [pump_wait p r rest b s hn]
      exact hWait (s.setAnswers []) b (hAnswers s [] hP)
    | some ca =>
      obtain ⟨c, as⟩ := ca
      cases c with
      | error e => rw [pump_err p r rest b s hn]; exact hFail _ e (hAnswers s as hP)
      | ok x =>
        cases rest with
        | nil => rw [pump_last p r b s hn]; exact hCommit _ _ (hAnswers s as hP)
        | cons r' rest =>
          rw [pump_more p r r' rest b s hn]
          exact ih _ _ (by simp) (fun q hq => hmem q (List.mem_cons_of_mem r hq))
            (hIssue _ r' (hmem r' (by simp)) (hAnswers s as hP))

theorem launch_nil (p : Plan) (b : Busy) (s : State) (h : p.script = []) : launch p b s = p.commit b.bytes s := by
  simp [launch, h]

theorem launch_cons (p : Plan) (b : Busy) (s : State) {r : Request} {rest : List Request} (h : p.script = r :: rest) :
    launch p b s = pump p (r :: rest) b (s.issue r) := by
  simp [launch, h]

/-- `launch` under the rule of `pump_rule`. -/
theorem launch_rule {P Q : State → Prop} (p : Plan)
    (hIssue : ∀ s r, r ∈ p.script → P s → P (s.issue r)) (hAnswers : ∀ s as, P s → P (s.setAnswers as))
    (hWait : ∀ s b, P s → Q (s.setPhase (.busy b))) (hCommit : ∀ s bytes, P s → Q (p.commit bytes s))
    (hFail : ∀ s e, P s → Q (p.fail e s)) (b : Busy) (s : State) (h : P s) : Q (launch p b s) := by
  cases hs : p.script with
  | nil => rw [launch_nil p b s hs]; exact hCommit s _ h
  | cons r rest =>
    rw [launch_cons p b s hs, ← hs]
    exact pump_rule p p.script hIssue hAnswers hWait hCommit hFail p.script b _ (by simp [hs]) (fun _ hr => hr)
      (hIssue s r (by simp [hs]) h)

/-- A script whose transaction `oks.length` fails after `oks.length` completions: the ones after it are not issued. -/
theorem pump_err_at (p : Plan) (e : BusErr) (rest : List Answer) :
    ∀ (rs : List Request) (oks : List Byte) (b : Busy) (s : State), oks.length < rs.length →
      s.answers = oks.map Answer.ok ++ .err e :: rest →
      pump p rs b s = p.fail e { s with answers := rest, trace := s.trace ++ (rs.take (oks.length + 1)).tail }
  | [], oks, _, _, h, _ => by simp at h
  | [r], [], b, s, _, ha => by rw [pump_err p r [] b s (by rw [ha]; rfl)]; simp [State.setAnswers]
  | [_], _ :: _, _, _, h, _ => by simp at h
  | r :: r' :: rs, [], b, s, _, ha => by
    rw [pump_err p r _ b s (by rw [ha]; rfl)]
    simp [State.setAnswers]
  | r :: r' :: rs, o :: os, b, s, h, ha => by
    rw [pump_more p r r' rs b s (by rw [ha]; rfl), pump_err_at p e rest (r' :: rs) os _ _ (by simpa using h) rfl]
    simp [State.setAnswers, State.issue]

/-- `launch` when transaction `oks.length` of the script fails: the script up to it was issued. -/
theorem launch_err_at (p : Plan) (e : BusErr) (rest : List Answer) (oks : List Byte) (b : Busy) (s : State)
    (h : oks.length < p.script.length) (ha : s.answers = oks.map Answer.ok ++ .err e :: rest) :
    launch p b s = p.fail e { s with answers := rest, trace := s.trace ++ p.script.take (oks.length + 1) } := by
  cases hs : p.script with
  | nil => simp [hs] at h
  | cons r rs =>
    rw [launch_cons p b s hs, pump_err_at p e rest (r :: rs) oks b _ (by simpa [hs] using h) (by simpa using ha)]
    simp [State.issue]

/-! ### Accepting and ending a command -/

@[simp] theorem readBytes_write (reg : Byte) (d : List Byte) (x : Byte) : readBytes (.write reg d) x = [] := rfl
@[simp] theorem readBytes_select (reg x : Byte) : readBytes (.select reg) x = [] := rfl
@[simp] theorem readBytes_read (x : Byte) : readBytes .read x = [x] := rfl
@[simp] theorem Busy.start_bytes (w : Word) : (Busy.start w).bytes = [] := rfl
@[simp] theorem Busy.start_index (w : Word) : (Busy.start w).index = 0 := rfl
@[simp] theorem Busy.start_accs (w : Word) : (Busy.start w).accs = Accs.zero := rfl
@[simp] theorem Busy.start_word (w : Word) : (Busy.start w).word = w := rfl
@[simp] theorem Busy.advance_bytes (b : Busy) (r : Request) (x : Byte) :
    (b.advance r x).bytes = b.bytes ++ readBytes r x := rfl
@[simp] theorem Busy.advance_index (b : Busy) (r : Request) (x : Byte) : (b.advance r x).index = b.index + 1 := rfl
@[simp] theorem Busy.advance_word (b : Busy) (r : Request) (x : Byte) : (b.advance r x).word = b.word := rfl
@[simp] theorem Busy.advance_accs (b : Busy) (r : Request) (x : Byte) : (b.advance r x).accs = b.accs := rfl

/-- In `BUSY` a command waits. -/
theorem accept_busy (i : Instr) (run : Busy → State → State) (s : State) {b : Busy} (h : s.phase = .busy b) :
    accept i run s = s := by
  simp [accept, h]

/-- An instance in `IDLE` runs a command of its own variant. -/
theorem accept_ready (i : Instr) (run : Busy → State → State) (s : State) (h : s.readyFor i.variant) :
    accept i run s = run (Busy.start (encode i)) (s.begin (encode i)) := by
  simp [accept, h.1, h.2, Instr.wellFormed]

/-- An instance in `IDLE` answers a command of the other variant as illegal. -/
theorem accept_wrongVariant (i : Instr) (run : Busy → State → State) (s : State) (hi : s.phase = .idle)
    (hv : s.variant ≠ i.variant) : accept i run s = raiseIllegal (s.begin (encode i)) := by
  simp [accept, hi, Instr.wellFormed, Ne.symm hv]

/-- A command that has begun, issued its requests, taken its draws and ended has done nothing else. -/
theorem begin_ended (s : State) (w : Word) (rs : List Request) (as : List Answer) (r : Response) :
    (s.begin w).ended rs as r = s.ended rs as r := rfl

@[simp] theorem respondOk_eq (d : Mask16) (s : State) : respondOk d s = s.endCommand (.done d) := rfl
@[simp] theorem raiseDir_eq (s : State) : raiseDir s = s.endCommand .dir := rfl
@[simp] theorem raiseIllegal_eq (s : State) : raiseIllegal s = s.endCommand .illegal := rfl
@[simp] theorem raiseBus_eq (e : BusErr) (s : State) : raiseBus e s = s.endCommand (.bus e) := rfl

/-! ### Waiting and reset -/

/-- What `IDLE` drops are late completions only: the next completion stays what it was. -/
theorem nextAnswer_dropLate (as : List Answer) : nextAnswer (dropLate as) = nextAnswer as := by
  induction as with
  | nil => rfl
  | cons a as ih => cases a <;> simp [dropLate, ih]

/-- Without a late completion `IDLE` drops nothing. -/
theorem dropLate_of_counts {a : Answer} (as : List Answer) (h : a.counts = true) : dropLate (a :: as) = a :: as := by
  cases a <;> simp_all [dropLate, Answer.counts]

@[simp] theorem applyReset_variant (s : State) : (applyReset s).variant = s.variant := rfl
@[simp] theorem applyReset_x16 (s : State) : (applyReset s).x16 = X16Regs.reset := rfl
@[simp] theorem applyReset_x8 (s : State) : (applyReset s).x8 = X8Regs.reset := rfl
@[simp] theorem applyReset_phase (s : State) : (applyReset s).phase = .idle := rfl
@[simp] theorem applyReset_response (s : State) : (applyReset s).response = none := rfl
@[simp] theorem applyReset_rst (s : State) : (applyReset s).rst = false := rfl
@[simp] theorem applyReset_cmd (s : State) : (applyReset s).cmd = s.cmd := rfl
@[simp] theorem applyReset_answers (s : State) : (applyReset s).answers = answersAfterReset s.phase s.answers := rfl
@[simp] theorem applyReset_trace (s : State) : (applyReset s).trace = s.trace := rfl
@[simp] theorem applyReset_draws (s : State) : (applyReset s).draws = s.draws := rfl

end Sys2Proof.Machine
end

