-- ==== Sys2Proof/Laws/Step.lean ====
section
/-! SUPPORT. What a step can do, said once. -/

namespace Sys2Proof.Machine

/-- Every meaning is an acceptance: it waits in `BUSY`, answers a command of the other variant as illegal, and otherwise runs. -/
theorem exec_eq_accept (i : Instr) : ∃ run, ∀ s, exec i s = .next (accept i run s) := by
  cases i <;> exact ⟨_, fun _ => rfl⟩

/-- What a step can do: take the reset, go on with the command in progress, wait, run the presented command, or answer an illegal word. -/
theorem step_cases {s t : State} (h : step s = .next t) :
    (s.rst = true ∧ t = applyReset s) ∨
    (s.rst = false ∧ ∃ b, s.phase = .busy b ∧ t = resume b s) ∨
    (s.rst = false ∧ s.phase = .idle ∧ s.cmd = none ∧ t = idleWait s) ∨
    (s.rst = false ∧ s.phase = .idle ∧ ∃ w i, s.cmd = some w ∧ decode s.variant w = .ok i ∧ exec i s.takeCmd = .next t) ∨
    (s.rst = false ∧ s.phase = .idle ∧ ∃ w e, s.cmd = some w ∧ decode s.variant w = .error e ∧ t = acceptIllegal w s.takeCmd) := by
  unfold step at h
  split at h
  · rename_i hr
    exact .inl ⟨hr, by injection h with h; exact h.symm⟩
  · rename_i hr
    have hr : s.rst = false := by simpa using hr
    split at h
    · rename_i b hp
      exact .inr (.inl ⟨hr, b, hp, by injection h with h; exact h.symm⟩)
    · rename_i hp
      split at h
      · rename_i hc
        exact .inr (.inr (.inl ⟨hr, hp, hc, by injection h with h; exact h.symm⟩))
      · rename_i w hc
        split at h
        · rename_i i hd
          exact .inr (.inr (.inr (.inl ⟨hr, hp, w, i, hc, hd, h⟩)))
        · rename_i e hd
          exact .inr (.inr (.inr (.inr ⟨hr, hp, w, e, hc, hd, by injection h with h; exact h.symm⟩)))

end Sys2Proof.Machine
end

