-- ==== Sys2Proof/Laws/Meanings.lean ====
section
/-! SUPPORT. What each command does once an instance has accepted it, said once for all eleven: the prelude that writes registers before the
bus is used, the requests of its plan, and what its plan does at the end. -/

namespace Sys2Proof.Machine

/-- The registers written before a command's first transaction: the configuration masks by `X16.CFG`, `portCache` by the GXC8 writes. -/
def prelude (i : Instr) (s : State) : State :=
  match i with
  | .x16Cfg flags _ => s.setX16 (cfgAll flags s.x16).regs
  | .x16Rd _ => s
  | .x16RdPin _ => s
  | .x16Wr _ _ => s
  | .x16WrPin _ _ => s
  | .x8Wr val => s.setPortCache val
  | .x8WrPin pin value => s.setPortCache (writeBit s.x8.portCache pin value)
  | .x8Tgl pin => s.setPortCache (s.x8.portCache ^^^ bit8 pin.toNat)
  | .x8Rd => s
  | .x8RdPin _ => s
  | .x8Cleanup => s.setPortCache (cleanupCache Config.x8CleanupCache s.x8.portCache)

/-- The `BUSY` context with which a command starts its transactions. -/
def startCtx (i : Instr) (s : State) : Busy :=
  match i with
  | .x16Cfg flags _ => { Busy.start (encode i) with accs := (cfgAll flags s.x16).accs }
  | _ => Busy.start (encode i)

/-- The direction check of the two single-pin GXC16 commands (R201); every other command has none. -/
def passesCheck (i : Instr) (s : State) : Bool :=
  match i with
  | .x16RdPin pin => s.x16.directionMask.getLsbD pin.toNat
  | .x16WrPin pin _ => s.x16.outputMask.getLsbD pin.toNat
  | _ => true

/-- A command on an instance ready for it: its check, its prelude, then its plan. -/
theorem exec_ready (i : Instr) (s : State) (h : s.readyFor i.variant) :
    exec i s = .next
      (if passesCheck i s then
        launch (planOf i (startCtx i s) (prelude i (s.begin (encode i)))) (startCtx i s) (prelude i (s.begin (encode i)))
      else raiseDir (s.begin (encode i))) := by
  cases i <;>
    simp only [exec, execX16Cfg, execX16Rd, execX16RdPin, execX16Wr, execX16WrPin, execX8Wr, execX8WrPin, execX8Tgl, execX8Rd,
      execX8RdPin, execX8Cleanup, cacheAndSend] <;>
    rw [accept_ready _ _ _ h] <;> rfl

@[simp] theorem startCtx_word (i : Instr) (s : State) : (startCtx i s).word = encode i := by cases i <;> rfl
@[simp] theorem startCtx_index (i : Instr) (s : State) : (startCtx i s).index = 0 := by cases i <;> rfl
@[simp] theorem startCtx_bytes (i : Instr) (s : State) : (startCtx i s).bytes = [] := by cases i <;> rfl

/-- No command has more than five transactions (R107, R123). -/
theorem planOf_script_length (i : Instr) (b : Busy) (s : State) : (planOf i b s).script.length ≤ 5 := by
  cases i <;>
    simp only [planOf, planX16Cfg, planX16Rd, planX16RdPin, planX16Wr, planX16WrPin, planMaskedWrite, planSendPort, planReadPort,
      rdScript, wrScript, readPort] <;>
    (try split_ifs) <;> simp [cfgScript]

/-- How a plan ends when all its transactions have completed: a response alone, or with `pinCache` written (GXC8 reads), or with
`outputCache` written (GXC16 masked writes). -/
theorem planOf_commit (i : Instr) (b : Busy) (s : State) (bytes : List Byte) (t : State) :
    (∃ d, (planOf i b s).commit bytes t = t.endCommand (.done d)) ∨
      (i.variant = .x8 ∧ ∃ x d, (planOf i b s).commit bytes t = (t.setPinCache x).endCommand (.done d)) ∨
      (i.variant = .x16 ∧ ∃ mask val,
        (planOf i b s).commit bytes t = (t.setOutputCache (wrMerge (wrMask mask s.x16) val s.x16)).endCommand (.done 0)) := by
  cases i
  case x16Wr mask val => exact .inr (.inr ⟨rfl, mask, val, rfl⟩)
  case x16WrPin pin value => exact .inr (.inr ⟨rfl, bit16 pin.toNat, pinLevel pin value, rfl⟩)
  case x8Rd => exact .inr (.inl ⟨rfl, byteAt bytes 0, _, rfl⟩)
  case x8RdPin pin => exact .inr (.inl ⟨rfl, byteAt bytes 0, _, rfl⟩)
  all_goals exact .inl ⟨_, rfl⟩

/-- How a plan ends when a transaction fails: `ERR_BUS`, for a masked write with the free value of R144 in `outputCache`. -/
theorem planOf_fail (i : Instr) (b : Busy) (s : State) (e : BusErr) (t : State) :
    (planOf i b s).fail e t = t.endCommand (.bus e) ∨
      (i.variant = .x16 ∧ ∃ mask val,
        (planOf i b s).fail e t =
          ((t.setOutputCache
            (if Config.failedWriteTakesNew t.draws then wrMerge (wrMask mask s.x16) val s.x16 else t.x16.outputCache)).useDraw).endCommand
            (.bus e)) := by
  cases i
  case x16Wr mask val => exact .inr ⟨rfl, mask, val, rfl⟩
  case x16WrPin pin value => exact .inr ⟨rfl, bit16 pin.toNat, pinLevel pin value, rfl⟩
  all_goals exact .inl rfl

end Sys2Proof.Machine
end

