-- ==== Sys2Proof/Laws/Operands.lean ====
section
/-! SUPPORT. Operands bit by bit. -/

namespace Sys2Proof.Machine

@[simp] theorem getLsbD_bit16 (p i : Nat) : (bit16 p).getLsbD i = (decide (i < 16) && decide (p = i)) := by
  by_cases h : p = i <;> simp [bit16, BitVec.getLsbD_twoPow, h]

@[simp] theorem getLsbD_bit8 (p i : Nat) : (bit8 p).getLsbD i = (decide (i < 8) && decide (p = i)) := by
  by_cases h : p = i <;> simp [bit8, BitVec.getLsbD_twoPow, h]

@[simp] theorem getElem_bit16 (p i : Nat) (h : i < 16) : (bit16 p)[i] = decide (p = i) := by
  rw [← BitVec.getLsbD_eq_getElem h, getLsbD_bit16]; simp only [h, decide_true, Bool.true_and]

@[simp] theorem getElem_bit8 (p i : Nat) (h : i < 8) : (bit8 p)[i] = decide (p = i) := by
  rw [← BitVec.getLsbD_eq_getElem h, getLsbD_bit8]; simp only [h, decide_true, Bool.true_and]

theorem getLsbD_lo (v : Mask16) (i : Nat) : (lo v).getLsbD i = (decide (i < 8) && v.getLsbD i) := by
  simp [lo]

theorem getLsbD_hi (v : Mask16) (i : Nat) : (hi v).getLsbD i = (decide (i < 8) && v.getLsbD (8 + i)) := by
  simp [hi]

/-- Bits 0..7 of joined halves are port A's, bits 8..15 port B's. -/
theorem getLsbD_joinHalves (b a : Byte) (i : Nat) :
    (joinHalves b a).getLsbD i = if i < 8 then a.getLsbD i else b.getLsbD (i - 8) := by
  simp only [joinHalves]; rw [BitVec.getLsbD_append]

/-- A fold that ORs the bits of the listed pins that pass a test. -/
theorem getLsbD_foldl_bits (test : Nat → Bool) (pins : List Nat) (m : Mask16) (i : Nat) :
    (pins.foldl (fun m p => if test p then m ||| bit16 p else m) m).getLsbD i
      = (m.getLsbD i || (decide (i < 16) && decide (i ∈ pins) && test i)) := by
  induction pins generalizing m with
  | nil => simp
  | cons p ps ih =>
    rw [List.foldl_cons, ih]
    by_cases he : p = i
    · subst he
      by_cases hp : p < 16 <;> cases ht : test p <;> simp [hp]
    · have he' : ¬ i = p := fun h => he h.symm
      cases ht : test p <;> simp [he, he']

/-- Bit `p` of a flag vector is the flag of pin `p`. -/
theorem getLsbD_flagVector (flags : BitVec 96) (sel : PinFlags → Bool) (i : Nat) :
    (flagVector flags sel).getLsbD i = (decide (i < 16) && sel (pinFlags flags i)) := by
  unfold flagVector
  rw [getLsbD_foldl_bits (fun p => sel (pinFlags flags p))]
  by_cases h : i < 16 <;> simp [h]

end Sys2Proof.Machine
end

