-- ==== Sys2Proof/Laws/PerInstr.lean ====
section
/-! SUPPORT. Family `EncodesInRow`: the word of a command is taken by a row of its own variant in the opcode table (30_encoding.md R81,
R85), and that row reads the command back with its mnemonic (R73 to R79). -/

namespace Sys2Proof.Laws.EncodesInRow

def Statement (i : Instr) : Prop :=
  ∃ r ∈ rowsOf i.variant, r.takes (encode i) = true ∧ r.read (encode i) = i ∧ r.mnemonic = i.mnemonic

theorem x16Cfg (flags : BitVec 96) (apply : Bool) : Statement (.x16Cfg flags apply) := by
  refine ⟨rows[0], by simp [rowsOf, rows, Instr.variant], ?_, ?_, rfl⟩
  · simp only [rows, List.getElem_cons_zero, Row.takes, beq_iff_eq]
    apply BitVec.eq_of_getLsbD_eq
    intro i hi
    simp only [encode, commandWord, Instr.operands, Instr.opcode, Instr.variant, Instr.applyBit, Variant.bit,
      BitVec.getLsbD_and, BitVec.getLsbD_append]
    interval_cases i <;> simp
  · have hf : (encode (.x16Cfg flags apply)).extractLsb' 0 96 = flags := by
      apply BitVec.eq_of_getLsbD_eq
      intro i hi
      simp only [encode, commandWord, Instr.operands, BitVec.getLsbD_extractLsb', BitVec.getLsbD_append]
      simp [hi]
    have ha : (encode (.x16Cfg flags apply)).getLsbD 96 = apply := by
      simp only [encode, commandWord, Instr.applyBit, BitVec.getLsbD_append]
      simp
    simp only [rows, List.getElem_cons_zero, hf, ha]

theorem x16Rd (mask : Mask16) : Statement (.x16Rd mask) := by
  refine ⟨rows[1], by simp [rowsOf, rows, Instr.variant], ?_, ?_, rfl⟩
  · simp only [rows, List.getElem_cons_zero, List.getElem_cons_succ, Row.takes, beq_iff_eq]
    apply BitVec.eq_of_getLsbD_eq
    intro i hi
    simp only [encode, commandWord, Instr.operands, Instr.opcode, Instr.variant, Instr.applyBit, Variant.bit,
      BitVec.getLsbD_and, BitVec.getLsbD_append]
    interval_cases i <;> simp
  · have hm : (encode (.x16Rd mask)).extractLsb' 0 16 = mask := by
      apply BitVec.eq_of_getLsbD_eq
      intro i hi
      have h96 : i < 96 := by omega
      simp only [encode, commandWord, Instr.operands, BitVec.getLsbD_extractLsb', BitVec.getLsbD_append]
      simp [hi, h96]
    simp only [rows, List.getElem_cons_zero, List.getElem_cons_succ, hm]

theorem x16RdPin (pin : BitVec 4) : Statement (.x16RdPin pin) := by
  refine ⟨rows[2], by simp [rowsOf, rows, Instr.variant], ?_, ?_, rfl⟩ <;> revert pin <;> decide

theorem x16Wr (mask val : Mask16) : Statement (.x16Wr mask val) := by
  refine ⟨rows[3], by simp [rowsOf, rows, Instr.variant], ?_, ?_, rfl⟩
  · simp only [rows, List.getElem_cons_zero, List.getElem_cons_succ, Row.takes, beq_iff_eq]
    apply BitVec.eq_of_getLsbD_eq
    intro i hi
    simp only [encode, commandWord, Instr.operands, Instr.opcode, Instr.variant, Instr.applyBit, Variant.bit,
      BitVec.getLsbD_and, BitVec.getLsbD_append]
    interval_cases i <;> simp
  · have hm : (encode (.x16Wr mask val)).extractLsb' 16 16 = mask := by
      apply BitVec.eq_of_getLsbD_eq
      intro i hi
      have h96 : 16 + i < 96 := by omega
      have h32 : 16 + i < 32 := by omega
      simp only [encode, commandWord, Instr.operands, BitVec.getLsbD_extractLsb', BitVec.getLsbD_append]
      simp [hi, h96]
    have hv : (encode (.x16Wr mask val)).extractLsb' 0 16 = val := by
      apply BitVec.eq_of_getLsbD_eq
      intro i hi
      have h96 : i < 96 := by omega
      simp only [encode, commandWord, Instr.operands, BitVec.getLsbD_extractLsb', BitVec.getLsbD_append]
      simp [hi, h96]
    simp only [rows, List.getElem_cons_zero, List.getElem_cons_succ, hm, hv]

theorem x16WrPin (pin : BitVec 4) (value : Bool) : Statement (.x16WrPin pin value) := by
  refine ⟨rows[4], by simp [rowsOf, rows, Instr.variant], ?_, ?_, rfl⟩ <;> revert pin value <;> decide

theorem x8Wr (val : Byte) : Statement (.x8Wr val) := by
  refine ⟨rows[5], by simp [rowsOf, rows, Instr.variant], ?_, ?_, rfl⟩ <;> revert val <;> decide

theorem x8WrPin (pin : BitVec 3) (value : Bool) : Statement (.x8WrPin pin value) := by
  refine ⟨rows[6], by simp [rowsOf, rows, Instr.variant], ?_, ?_, rfl⟩ <;> revert pin value <;> decide

theorem x8Tgl (pin : BitVec 3) : Statement (.x8Tgl pin) := by
  refine ⟨rows[7], by simp [rowsOf, rows, Instr.variant], ?_, ?_, rfl⟩ <;> revert pin <;> decide

theorem x8Rd : Statement .x8Rd :=
  ⟨rows[8], by simp [rowsOf, rows, Instr.variant], by decide, rfl, rfl⟩

theorem x8RdPin (pin : BitVec 3) : Statement (.x8RdPin pin) := by
  refine ⟨rows[9], by simp [rowsOf, rows, Instr.variant], ?_, ?_, rfl⟩ <;> revert pin <;> decide

theorem x8Cleanup : Statement .x8Cleanup :=
  ⟨rows[10], by simp [rowsOf, rows, Instr.variant], by decide, rfl, rfl⟩

end Sys2Proof.Laws.EncodesInRow
end

