-- ==== Sys2Proof/Tests/Slice0.lean ====
section
/-! SUPPORT. Tests on fixed values. Every expected value is the spec's: the words of 30_encoding.md R85 and of 95_test_vectors.md, and the
rows of the tables V-CFG, V-RD, V-RDPIN, V-WR, V-X8, V-MASK, P5 there. A `witness_…` theorem gives, for the obligation it names, a state and
operands that meet all of the obligation's hypotheses, with the spec's result beside them where the obligation has one. -/

namespace Sys2Proof.Tests

open Sys2Proof.Machine

/-! ### Helpers -/

/-- The next state, if there is one. -/
def nextOf : Host.Outcome State Fault Refusal → Option State
  | .next t => some t
  | .fault _ => none
  | .refused _ => none

/-- What a host and a bus observer see of a command's end. -/
structure Seen where
  status : Status
  data : Mask16
  errp : Option BusErr
  trace : List Request
deriving DecidableEq, Repr

/-- The response and the requests of an outcome, if a response was given. -/
def seen (o : Host.Outcome State Fault Refusal) : Option Seen :=
  match nextOf o with
  | none => none
  | some t => t.response.map fun r => { status := r.status, data := r.data, errp := r.errp, trace := t.trace }

/-- A response without an error payload. -/
def reply (status : Status) (data : Mask16) (trace : List Request) : Option Seen :=
  some { status := status, data := data, errp := none, trace := trace }

/-- A bus failure with its payload. -/
def busFailed (e : BusErr) (trace : List Request) : Option Seen :=
  some { status := .errBus, data := 0x0000, errp := some e, trace := trace }

/-- An idle GXC16 instance. -/
def gxc16 (r : X16Regs) (as : List Answer) : State := { State.resetOf .x16 with x16 := r, answers := as }

/-- An idle GXC8 instance. -/
def gxc8 (portCache : Byte) (as : List Answer) : State :=
  { State.resetOf .x8 with x8 := { portCache := portCache, pinCache := none }, answers := as }

/-- State A of V-RD. -/
def regsA : X16Regs :=
  { inputMask := 0x0203, outputMask := 0x8100, directionMask := 0x7EFF, activeLowMask := 0x0201, outputCache := 0x0000 }

/-- State B of V-WR, with the `oC` of the row before. -/
def regsB (cache : Mask16) : X16Regs :=
  { inputMask := 0x0010, outputMask := 0x8109, directionMask := 0x7EF6, activeLowMask := 0x8001, outputCache := cache }

/-- A payload. -/
def nack : BusErr := { payload := 7 }

/-- A GXC8 instance waiting for the completion of `x8.wr 0x12`. -/
def waiting8 (as : List Answer) : State :=
  { gxc8 0x12 as with phase := .busy (Busy.start 0x18000000000000000000000000000012), trace := [.write 0x12 []] }

/-! ### Well-formedness: the one check, with a term it refuses on each side -/

theorem test_wellFormed_accepts : (Instr.x8Tgl 7).wellFormed .x8 = true ∧ (Instr.x16Rd 0xFFFF).wellFormed .x16 = true := by decide

theorem test_wellFormed_refuses_x8_on_x16 : (Instr.x8Tgl 7).wellFormed .x16 = false := by decide

theorem test_wellFormed_refuses_x16_on_x8 : (Instr.x16Rd 0xFFFF).wellFormed .x8 = false := by decide

/-! ### Decoding: one word of every row, written out from the spec, and illegal words -/

/-- What the decoder answers, as data that can be compared. -/
def decoded (v : Variant) (w : Word) : Sum Illegal Instr :=
  match decode v w with
  | .ok i => .inr i
  | .error e => .inl e

theorem test_decode_x16Cfg : decoded .x16 0x10000001280000000002000000000000 = .inr (.x16Cfg 0x280000000002000000000000 true) := by decide

theorem test_decode_x16Cfg_noapply : decoded .x16 0x10000000000008000000000002000000 = .inr (.x16Cfg 0x000008000000000002000000 false) := by decide

theorem test_decode_x16Rd : decoded .x16 0x20000000000000000000000000000200 = .inr (.x16Rd 0x0200) := by decide

theorem test_decode_x16RdPin : decoded .x16 0x30000000000000000000000000000009 = .inr (.x16RdPin 9) := by decide

theorem test_decode_x16Wr : decoded .x16 0x4000000000000000000000000008FFFF = .inr (.x16Wr 0x0008 0xFFFF) := by decide

theorem test_decode_x16WrPin : decoded .x16 0x5000000000000000000000000000010F = .inr (.x16WrPin 15 true) := by decide

theorem test_decode_x8Wr : decoded .x8 0x180000000000000000000000000000A5 = .inr (.x8Wr 0xA5) := by decide

theorem test_decode_x8WrPin : decoded .x8 0x28000000000000000000000000000103 = .inr (.x8WrPin 3 true) := by decide

theorem test_decode_x8Tgl : decoded .x8 0x38000000000000000000000000000007 = .inr (.x8Tgl 7) := by decide

theorem test_decode_x8Rd : decoded .x8 0x48000000000000000000000000000000 = .inr .x8Rd := by decide

theorem test_decode_x8RdPin : decoded .x8 0x58000000000000000000000000000004 = .inr (.x8RdPin 4) := by decide

theorem test_decode_x8Cleanup : decoded .x8 0x68000000000000000000000000000000 = .inr .x8Cleanup := by decide

theorem test_decode_reserved_bit : decoded .x16 0x30000000000000000000000000000018 = .inl .reservedBits := by decide

theorem test_decode_apply_bit_of_a_read : decoded .x16 0x20000001000000000000000000000000 = .inl .reservedBits := by decide

theorem test_decode_unassigned : decoded .x16 0x60000000000000000000000000000000 = .inl .unassignedOpcode := by decide

theorem test_decode_zero_word : decoded .x16 0x00000000000000000000000000000000 = .inl .unassignedOpcode := by decide

theorem test_decode_wrong_variant : decoded .x8 0x10000000000000000000000000000000 = .inl .wrongVariant := by decide

/-- A table word is read by an instance of the word's own variant. -/
theorem test_decodeTableWord : decodeTableWord 128 0x38000000000000000000000000000005 = some (.x8Tgl 5) := by decide

/-- The word placed for the next step is run by it, as the first command after reset. -/
theorem test_withFetchWord_runs :
    seen (step (State.reset.withFetchWord 128 0x20000000000000000000000000000000)) = reply .ok 0x0000 [] ∧
      (nextOf (step (State.reset.withFetchWord 128 0x48000000000000000000000000000000))).bind State.outstanding = some .read := by
  decide +kernel

/-! ### The encoder, on words of the spec -/

/-- R85: `x16.cfg 0:in|pu|al, 8:out`. -/
theorem test_encode_worked_example : encode (.x16Cfg 0x00000000000200000000000D true) = 0x1000000100000000000200000000000D := by decide

theorem test_encode_x16Wr : encode (.x16Wr 0x8000 0x8000) = 0x40000000000000000000000080008000 := by decide

/-! ### The helper and the assembler -/

/-- V-MASK. -/
theorem test_makePinMask :
    makePinMask [0, 8, 15] = 0x8101 ∧ makePinMask [] = 0x0000 ∧ makePinMask [-1, 16, 3] = 0x0008 ∧ makePinMask [15, 15] = 0x8000 := by
  decide +kernel

/-- R85, from its text. -/
theorem test_assemble_cfg : assembleText "x16.cfg 0:in|pu|al, 8:out" = some 0x1000000100000000000200000000000D := by decide +kernel

/-- P2, command 3, from its text. -/
theorem test_assemble_cfg_noapply : assembleText "x16.cfg noapply 4:out, 12:al" = some 0x10000000000008000000000002000000 := by decide +kernel

/-- R84: no operand is all pins. -/
theorem test_assemble_rd_default : assembleText "x16.rd" = some 0x2000000000000000000000000000FFFF := by decide +kernel

/-- R84: a pin listed twice is an assembler error. -/
theorem test_assemble_pin_twice : assembleText "x16.cfg 3:in, 3:pu" = none := by decide +kernel

/-! ### Encoding obligations -/

theorem witness_EncodeOfDecodeIsTheWord : decode .x8 0x28000000000000000000000000000007 = .ok (.x8WrPin 7 false) := by decide +kernel

theorem witness_CfgWordHoldsEachPinsFlagField :
    (15 : Nat) < 16 ∧ (encode (.x16Cfg 0x280000000000000000000000 true)).extractLsb' 90 6 = 0b001010#6 := by decide

/-! ### Step obligations -/

theorem witness_StepRunsTheDecodedCommand :
    let s : State := { gxc8 0x0F [.ok 0x00] with cmd := some 0x38000000000000000000000000000007 }
    s.rst = false ∧ s.phase = .idle ∧ s.cmd = some 0x38000000000000000000000000000007 ∧
      decoded s.variant 0x38000000000000000000000000000007 = .inr (.x8Tgl 7) ∧ seen (step s) = reply .ok 0x0000 [.write 0x8F []] := by
  decide

/-- P5, command 1: `ERR_ILLEGAL` comes before the direction check, and state A stays. -/
theorem witness_IllegalWordIsAnsweredAndChangesNothing :
    let s : State := { gxc16 regsA [] with cmd := some 0x30000000000000000000000000000018 }
    s.rst = false ∧ s.phase = .idle ∧ s.cmd = some 0x30000000000000000000000000000018 ∧
      (∀ r ∈ rows, r.variant = s.variant → 0x30000000000000000000000000000018 &&& r.mask ≠ r.pattern) ∧
      seen (step s) = reply .errIllegal 0x0000 [] ∧ (nextOf (step s)).map State.x16 = some regsA := by
  decide

/-- P5, command 3. -/
theorem witness_CommandOfOtherVariantIsIllegal :
    (gxc16 regsA []).phase = .idle ∧ (gxc16 regsA []).variant ≠ (Instr.x8Wr 0x00).variant ∧
      seen (exec (.x8Wr 0x00) (gxc16 regsA [])) = reply .errIllegal 0x0000 [] := by
  decide

theorem witness_CommandWaitsWhileBusy :
    (waiting8 []).phase = .busy (Busy.start 0x18000000000000000000000000000012) ∧ (waiting8 []).rst = false ∧
      nextOf (step { waiting8 [] with cmd := some 0x48000000000000000000000000000000 }) =
        some { waiting8 [] with cmd := some 0x48000000000000000000000000000000 } := by
  decide

theorem witness_BusyStaysWithoutCompletion :
    (waiting8 [.late, .late]).rst = false ∧ (waiting8 [.late, .late]).phase = .busy (Busy.start 0x18000000000000000000000000000012) ∧
      (∀ a ∈ (waiting8 [.late, .late]).answers, a = .late) ∧
      nextOf (Host.Core.run Sys2Proof.core 3 (waiting8 [.late, .late])) = some (waiting8 []) := by
  decide

/-- V-RST: a GXC8 instance with `pC = 0x12`, reset while it waits. -/
theorem witness_ResetInputResetsTheController :
    (waiting8 []).assertReset.rst = true ∧ nextOf (step (waiting8 []).assertReset) = some { State.resetOf .x8 with trace := [.write 0x12 []] } := by
  decide

theorem witness_LateCompletionIsIgnored :
    (waiting8 []).rst = false ∧ (waiting8 []).phase ≠ .idle ∧ (waiting8 []).busyWf = true ∧
      seen (step { waiting8 [] with answers := [.late, .err nack] }) = busFailed nack [.write 0x12 []] := by
  decide

/-- The clause on `IDLE` without a command: late completions go, the first other draw stays with all behind it. -/
theorem witness_LateCompletionIsIgnored_idle :
    (gxc8 0xFF []).rst = false ∧ (gxc8 0xFF []).phase = .idle ∧ (gxc8 0xFF []).cmd = none ∧
      nextOf (step (gxc8 0xFF [.late, .late, .ok 0x01, .late])) = some (gxc8 0xFF [.ok 0x01, .late]) := by
  decide

/-! ### X16.CFG -/

/-- P2, command 3, from the state after command 2. -/
theorem witness_CfgWithoutApplyCompletes :
    let s := gxc16 { inputMask := 0x0050, outputMask := 0x0020, directionMask := 0xFFDF, activeLowMask := 0x0000, outputCache := 0x0000 } []
    s.readyFor .x16 ∧
      (nextOf (exec (.x16Cfg 0x000008000000000002000000 false) s)).map State.x16 =
        some { inputMask := 0x0050, outputMask := 0x0030, directionMask := 0xFFCF, activeLowMask := 0x1000, outputCache := 0x0000 } ∧
      seen (exec (.x16Cfg 0x000008000000000002000000 false) s) = reply .ok 0x0000 [] := by
  decide

/-- P1, command 1, from reset. -/
theorem witness_CfgWithApplyCompletes :
    let s := gxc16 X16Regs.reset [.ok 0, .ok 0, .ok 0, .ok 0, .ok 0]
    s.readyFor .x16 ∧ s.answers = [.ok 0, .ok 0, .ok 0, .ok 0, .ok 0] ++ [] ∧
      seen (exec (.x16Cfg 0x080000000282000000C6144D true) s) =
        reply .ok 0x0000 [.write 0x00 [0xFF, 0x7C], .write 0x04 [0x0E, 0x00], .write 0x06 [0x04, 0x00], .write 0x08 [0x06, 0x00],
          .write 0x0C [0x01, 0x00]] ∧
      (nextOf (exec (.x16Cfg 0x080000000282000000C6144D true) s)).map State.x16 =
        some { inputMask := 0x000F, outputMask := 0x8300, directionMask := 0x7CFF, activeLowMask := 0x0201, outputCache := 0x0000 } := by
  decide

/-- P4, command 1: the third write fails, the masks are kept. -/
theorem witness_CfgBusFailureKeepsMasks :
    let s := gxc16 X16Regs.reset [.ok 0, .ok 0, .err nack]
    s.readyFor .x16 ∧ ([0, 0] : List Byte).length < 5 ∧ s.answers = ([0, 0] : List Byte).map Answer.ok ++ .err nack :: [] ∧
      seen (exec (.x16Cfg 0x000000000002000000000005 true) s) =
        busFailed nack [.write 0x00 [0xFF, 0xFE], .write 0x04 [0x00, 0x00], .write 0x06 [0x00, 0x00]] ∧
      (nextOf (exec (.x16Cfg 0x000000000002000000000005 true) s)).map State.x16 =
        some { inputMask := 0x0001, outputMask := 0x0100, directionMask := 0xFEFF, activeLowMask := 0x0000, outputCache := 0x0000 } := by
  decide

/-- The first and the last write of the five as the one that fails. -/
theorem witness_CfgBusFailureKeepsMasks_ends :
    ([] : List Byte).length < 5 ∧ ([0, 0, 0, 0] : List Byte).length < 5 ∧
      seen (exec (.x16Cfg 0 true) (gxc16 X16Regs.reset [.err nack])) = busFailed nack [.write 0x00 [0xFF, 0xFF]] ∧
      seen (exec (.x16Cfg 0 true) (gxc16 X16Regs.reset [.ok 0, .ok 0, .ok 0, .ok 0, .err nack])) =
        busFailed nack [.write 0x00 [0xFF, 0xFF], .write 0x04 [0x00, 0x00], .write 0x06 [0x00, 0x00], .write 0x08 [0x00, 0x00],
          .write 0x0C [0x00, 0x00]] := by
  decide

theorem witness_CfgPinOrderDoesNotMatter : (List.range 16).reverse.Perm (List.range 16) := by decide

/-- V-CFG, rows `3:pu|rise` and `10:out|pu|al`: neither pin has `Input`. -/
theorem witness_FlagsWithoutInputAreIgnored :
    (3 : Nat) < 16 ∧ (pinFlags 0x000000000000000000500000 3).input = false ∧ (pinFlags 0x000000000000000000500000 3).output = false ∧
      (cfgAll 0x000000000000000000500000 X16Regs.reset).regs = X16Regs.reset ∧
      (10 : Nat) < 16 ∧ (pinFlags 0x00000000E000000000000000 10).input = false ∧
      cfgAll 0x00000000E000000000000000 X16Regs.reset =
        { regs := { inputMask := 0x0000, outputMask := 0x0400, directionMask := 0xFBFF, activeLowMask := 0x0400, outputCache := 0x0000 }
          accs := Accs.zero } := by
  decide

/-- V-CFG, two commands on pin 8: an output stays an output. -/
theorem witness_ConfigurationOnlyAccumulates :
    let s : State := { gxc16 { X16Regs.reset with outputMask := 0x0100, directionMask := 0xFEFF } []
                       with cmd := some 0x10000000000000000001000000000000 }
    s.rst = false ∧ (nextOf (step s)).map State.x16 =
      some { inputMask := 0x0100, outputMask := 0x0100, directionMask := 0xFEFF, activeLowMask := 0x0000, outputCache := 0x0000 } := by
  decide

/-! ### X16.RD and X16.RDPIN -/

/-- V-RD, a mask in port A. -/
theorem witness_RdCompletes_portA :
    let s := gxc16 regsA [.ok 0, .ok 0x02]
    s.readyFor .x16 ∧
      s.answers = (if lo 0x0003 = 0 then [] else [.ok 0, .ok (lo 0x0002)]) ++ (if hi 0x0003 = 0 then [] else [.ok 0, .ok (hi 0x0002)]) ++ [] ∧
      seen (exec (.x16Rd 0x0003) s) = reply .ok 0x0003 [.select 0x12, .read] := by
  decide

/-- V-RD, a mask in port B. -/
theorem witness_RdCompletes_portB :
    let s := gxc16 regsA [.ok 0, .ok 0x00]
    s.readyFor .x16 ∧
      s.answers = (if lo 0x0200 = 0 then [] else [.ok 0, .ok (lo 0)]) ++ (if hi 0x0200 = 0 then [] else [.ok 0, .ok (hi 0)]) ++ [] ∧
      seen (exec (.x16Rd 0x0200) s) = reply .ok 0x0200 [.select 0x13, .read] := by
  decide

/-- V-RD, both ports. -/
theorem witness_RdResultBits :
    let s := gxc16 regsA [.ok 0, .ok 0xFF, .ok 0, .ok 0xFF]
    s.readyFor .x16 ∧
      s.answers =
        (if lo 0xFFFF = 0 then [] else [.ok 0, .ok (lo 0xFFFF)]) ++ (if hi 0xFFFF = 0 then [] else [.ok 0, .ok (hi 0xFFFF)]) ++ [] ∧
      seen (exec (.x16Rd 0xFFFF) s) = reply .ok 0x0002 [.select 0x12, .read, .select 0x13, .read] := by
  decide

/-- V-RD, no pin. -/
theorem witness_RdCompletes_noPin :
    let s := gxc16 regsA []
    s.readyFor .x16 ∧
      s.answers = (if lo 0x0000 = 0 then [] else [.ok 0, .ok (lo 0)]) ++ (if hi 0x0000 = 0 then [] else [.ok 0, .ok (hi 0)]) ++ [] ∧
      seen (exec (.x16Rd 0x0000) s) = reply .ok 0x0000 [] := by
  decide

/-- V-RD, the last row: the second select fails. -/
theorem witness_RdBusFailureChangesNothing :
    let s := gxc16 regsA [.ok 0, .ok 0x00, .err nack]
    s.readyFor .x16 ∧
      ([0, 0x00] : List Byte).length <
        (((if lo 0xFFFF = 0 then [] else [.select 0x12, .read]) ++ (if hi 0xFFFF = 0 then [] else [.select 0x13, .read])) :
          List Request).length ∧
      s.answers = ([0, 0x00] : List Byte).map Answer.ok ++ .err nack :: [] ∧
      seen (exec (.x16Rd 0xFFFF) s) = busFailed nack [.select 0x12, .read, .select 0x13] := by
  decide

/-- V-RDPIN: output pin 15, unconfigured pin 7, active-low pin 9. -/
theorem witness_RdPinCompletes :
    (gxc16 regsA []).readyFor .x16 ∧ regsA.directionMask.getLsbD (15 : BitVec 4).toNat = false ∧
      seen (exec (.x16RdPin 15) (gxc16 regsA [])) = reply .errDir 0xFFFF [] ∧
      regsA.directionMask.getLsbD (7 : BitVec 4).toNat = true ∧
      seen (exec (.x16RdPin 7) (gxc16 regsA [.ok 0, .ok 0x80])) = reply .ok 0x0001 [.select 0x12, .read] ∧
      regsA.directionMask.getLsbD (9 : BitVec 4).toNat = true ∧
      seen (exec (.x16RdPin 9) (gxc16 regsA [.ok 0, .ok 0x02])) = reply .ok 0x0000 [.select 0x13, .read] := by
  decide

/-- V-RDPIN, the last row, and the select as the one that fails. -/
theorem witness_RdPinCompletes_bus :
    seen (exec (.x16RdPin 1) (gxc16 regsA [.ok 0, .err nack])) = busFailed nack [.select 0x12, .read] ∧
      seen (exec (.x16RdPin 1) (gxc16 regsA [.err nack])) = busFailed nack [.select 0x12] := by
  decide

/-! ### X16.WR and X16.WRPIN -/

/-- V-WR, row `x16.wr 0xFFFF, 0x0000`: both halves. -/
theorem witness_WrCompletes :
    let s := gxc16 (regsB 0x0000) [.ok 0, .ok 0]
    s.readyFor .x16 ∧ (0x8109 : Mask16) = 0xFFFF &&& s.x16.outputMask ∧
      (0x0000 : Mask16) = (s.x16.outputCache &&& ~~~0x8109) ||| (0x0000 &&& 0x8109) ∧
      s.answers = (if lo 0x8109 = 0 then [] else [.ok 0]) ++ (if hi 0x8109 = 0 then [] else [.ok 0]) ++ [] ∧
      seen (exec (.x16Wr 0xFFFF 0x0000) s) = reply .ok 0x0000 [.write 0x12 [0x01], .write 0x13 [0x80]] := by
  decide

/-- V-WR, row `x16.wr 0x8000, 0x8000`: port B alone; and a write to an input pin: nothing. -/
theorem witness_WrCompletes_halves :
    (nextOf (exec (.x16Wr 0x8000 0x8000) (gxc16 (regsB 0x0008) [.ok 0]))).map (fun t => (t.trace, t.x16.outputCache)) =
        some ([.write 0x13 [0x00]], 0x8008) ∧
      (0x0000 : Mask16) = 0x0010 &&& (regsB 0x0000).outputMask ∧
      seen (exec (.x16Wr 0x0010 0x0010) (gxc16 (regsB 0x0000) [])) = reply .ok 0x0000 [] := by
  decide

/-- V-WR, the failure: the second write fails; `outputCache` is the draw, so nothing is said of it here. -/
theorem witness_WrBusFailureDrawsTheCache :
    let s := gxc16 (regsB 0x8109) [.ok 0, .err nack]
    s.readyFor .x16 ∧ (0x8109 : Mask16) = 0xFFFF &&& s.x16.outputMask ∧
      (0x0000 : Mask16) = (s.x16.outputCache &&& ~~~0x8109) ||| (0x0000 &&& 0x8109) ∧
      ([0] : List Byte).length <
        (((if lo 0x8109 = 0 then [] else [.write 0x12 [lo 0x0000 ^^^ lo s.x16.activeLowMask]])
          ++ (if hi 0x8109 = 0 then [] else [.write 0x13 [hi 0x0000 ^^^ hi s.x16.activeLowMask]])) : List Request).length ∧
      s.answers = ([0] : List Byte).map Answer.ok ++ .err nack :: [] ∧
      seen (exec (.x16Wr 0xFFFF 0x0000) s) = busFailed nack [.write 0x12 [0x01], .write 0x13 [0x80]] := by
  decide

/-- V-WR, rows `x16.wrpin 4, 1`, `x16.wrpin 0, 1` and `x16.wrpin 15, 0`. -/
theorem witness_WrPinCompletes :
    (gxc16 (regsB 0x8008) []).readyFor .x16 ∧ (regsB 0x8008).outputMask.getLsbD (4 : BitVec 4).toNat = false ∧
      seen (exec (.x16WrPin 4 true) (gxc16 (regsB 0x8008) [])) = reply .errDir 0xFFFF [] ∧
      (regsB 0x8008).outputMask.getLsbD (0 : BitVec 4).toNat = true ∧
      (0x8009 : Mask16) = (regsB 0x8008).outputCache ||| BitVec.twoPow 16 (0 : BitVec 4).toNat ∧
      seen (exec (.x16WrPin 0 true) (gxc16 (regsB 0x8008) [.ok 0])) = reply .ok 0x0000 [.write 0x12 [0x08]] ∧
      (regsB 0x8009).outputMask.getLsbD (15 : BitVec 4).toNat = true ∧
      (nextOf (exec (.x16WrPin 15 false) (gxc16 (regsB 0x8009) [.ok 0]))).map (fun t => (t.trace, t.x16.outputCache)) =
        some ([.write 0x13 [0x80]], 0x0009) := by
  decide

/-- The failing write of `X16.WRPIN`. -/
theorem witness_WrPinCompletes_bus :
    (gxc16 (regsB 0x8008) [.err nack]).answers = .err nack :: [] ∧
      seen (exec (.x16WrPin 0 true) (gxc16 (regsB 0x8008) [.err nack])) = busFailed nack [.write 0x12 [0x08]] := by
  decide

theorem witness_WrPinIsWrOfOneBit :
    let s := gxc16 (regsB 0x8008) [.ok 0]
    s.readyFor .x16 ∧ s.x16.outputMask.getLsbD (3 : BitVec 4).toNat = true ∧ s.answers = .ok 0 :: [] ∧ (Answer.ok 0) ≠ .late := by
  decide

theorem witness_SinglePinTestsAreComplementary :
    (gxc16 (regsB 0x8008) []).readyFor .x16 ∧ (gxc16 (regsB 0x8008) []).x16.coherent = true := by
  decide

theorem witness_ReissuedWrSendsTheSameBytes :
    ∃ t u v, (gxc16 (regsB 0x8109) [.ok 0, .err nack]).readyFor .x16 ∧
      exec (.x16Wr 0xFFFF 0x0000) (gxc16 (regsB 0x8109) [.ok 0, .err nack]) = .next t ∧
      t.response = some { status := .errBus, data := 0x0000, errp := some nack } ∧
      exec (.x16Wr 0xFFFF 0x0000) { gxc16 (regsB 0x8109) [.ok 0, .err nack] with answers := [.ok 0, .ok 0] } = .next u ∧
      exec (.x16Wr 0xFFFF 0x0000) { t with answers := [.ok 0, .ok 0] } = .next v ∧
      u.response = some { status := .ok, data := 0x0000, errp := none } :=
  ⟨_, _, _, by decide, rfl, rfl, rfl, rfl, rfl⟩

/-! ### GXC8 -/

/-- V-X8, row `x8.wr 0xA5`, and the failure of `x8.wr 0x12`: `portCache` is set before the send. -/
theorem witness_X8WrCompletes :
    (gxc8 0x00 [.ok 0]).readyFor .x8 ∧ (gxc8 0x00 [.ok 0]).answers = .ok 0 :: [] ∧
      seen (exec (.x8Wr 0xA5) (gxc8 0x00 [.ok 0])) = reply .ok 0x0000 [.write 0xA5 []] ∧
      (gxc8 0xFF [.err nack]).answers = .err nack :: [] ∧
      seen (exec (.x8Wr 0x12) (gxc8 0xFF [.err nack])) = busFailed nack [.write 0x12 []] ∧
      (nextOf (exec (.x8Wr 0x12) (gxc8 0xFF [.err nack]))).map State.x8 = some { portCache := 0x12, pinCache := none } := by
  decide

/-- V-X8, rows `x8.wrpin 7, 0` and `x8.wrpin 3, 1`. -/
theorem witness_X8WrPinCompletes :
    (gxc8 0xFF [.ok 0]).readyFor .x8 ∧ (0x7F : Byte) = (gxc8 0xFF [.ok 0]).x8.portCache &&& ~~~BitVec.twoPow 8 (7 : BitVec 3).toNat ∧
      seen (exec (.x8WrPin 7 false) (gxc8 0xFF [.ok 0])) = reply .ok 0x0000 [.write 0x7F []] ∧
      seen (exec (.x8WrPin 3 true) (gxc8 0xFF [.ok 0])) = reply .ok 0x0000 [.write 0xFF []] ∧
      (nextOf (exec (.x8WrPin 0 true) (gxc8 0x8E [.err nack]))).map State.x8 = some { portCache := 0x8F, pinCache := none } := by
  decide

/-- V-X8, rows `x8.tgl 7` and `x8.tgl 0`, and a failing write. -/
theorem witness_X8TglCompletes :
    (gxc8 0x7F [.ok 0]).readyFor .x8 ∧ seen (exec (.x8Tgl 7) (gxc8 0x7F [.ok 0])) = reply .ok 0x0000 [.write 0xFF []] ∧
      seen (exec (.x8Tgl 0) (gxc8 0xFF [.ok 0])) = reply .ok 0x0000 [.write 0xFE []] ∧
      seen (exec (.x8Tgl 0) (gxc8 0xFF [.err nack])) = busFailed nack [.write 0xFE []] := by
  decide

theorem witness_TwoTogglesRestoreThePort :
    let s := gxc8 0xFF [.ok 0, .err nack]
    s.readyFor .x8 ∧ s.answers = .ok 0 :: .err nack :: [] ∧ (Answer.ok 0) ≠ .late ∧ (Answer.err nack) ≠ .late := by
  decide

/-- V-X8: `x8.rd` with 0x00, and a failing read, which leaves `pinCache` without a value. -/
theorem witness_X8RdCompletes :
    (gxc8 0x00 [.ok 0x00]).readyFor .x8 ∧ seen (exec .x8Rd (gxc8 0x00 [.ok 0x00])) = reply .ok 0x0000 [.read] ∧
      (nextOf (exec .x8Rd (gxc8 0x00 [.ok 0xC3]))).map State.x8 = some { portCache := 0x00, pinCache := some 0xC3 } ∧
      seen (exec .x8Rd (gxc8 0xFF [.err nack])) = busFailed nack [.read] ∧
      (nextOf (exec .x8Rd (gxc8 0xFF [.err nack]))).map State.x8 = some { portCache := 0xFF, pinCache := none } := by
  decide

/-- V-X8, rows `x8.rdpin 0` and `x8.rdpin 7`. -/
theorem witness_X8RdPinCompletes :
    (gxc8 0x00 [.ok 0xFE]).readyFor .x8 ∧ seen (exec (.x8RdPin 0) (gxc8 0x00 [.ok 0xFE])) = reply .ok 0x0000 [.read] ∧
      (nextOf (exec (.x8RdPin 0) (gxc8 0x00 [.ok 0xFE]))).map State.x8 = some { portCache := 0x00, pinCache := some 0xFE } ∧
      seen (exec (.x8RdPin 7) (gxc8 0x00 [.ok 0x80])) = reply .ok 0x0001 [.read] ∧
      seen (exec (.x8RdPin 2) (gxc8 0x00 [.err nack])) = busFailed nack [.read] := by
  decide

/-- `X8_CLEANUP_CACHE` is open, so what `portCache` becomes is left open here; 0xFF meets both of the obligation's premises. -/
theorem witness_X8CleanupCompletes :
    (gxc8 0xFF [.ok 0]).readyFor .x8 ∧ (Config.x8CleanupCache = .setFF → (0xFF : Byte) = 0xFF) ∧
      (Config.x8CleanupCache = .keep → (0xFF : Byte) = (gxc8 0xFF [.ok 0]).x8.portCache) ∧
      seen (exec .x8Cleanup (gxc8 0xFF [.ok 0])) = reply .ok 0x0000 [.write 0xFF []] ∧
      seen (exec .x8Cleanup (gxc8 0xFF [.err nack])) = busFailed nack [.write 0xFF []] :=
  ⟨by decide, fun _ => rfl, fun _ => rfl, rfl, rfl⟩

/-- R172, for both values of the parameter. -/
theorem test_cleanupCache : cleanupCache .keep 0x8E = 0x8E ∧ cleanupCache .setFF 0x8E = 0xFF := by decide

/-! ### Responses and the bus -/

/-- A command that awaits its first completion, and one that ends at once. -/
theorem witness_FirstRequestIsAwaited :
    (gxc8 0xFF []).readyFor (Instr.x8Rd).variant ∧ (gxc8 0xFF []).answers = [] ∧
      (nextOf (exec .x8Rd (gxc8 0xFF []))).bind State.outstanding = some .read ∧
      (gxc16 regsA []).readyFor (Instr.x16RdPin 8).variant ∧ seen (exec (.x16RdPin 8) (gxc16 regsA [])) = reply .errDir 0xFFFF [] := by
  decide

theorem witness_OneResponsePerAcceptedCommand :
    let s : State := { gxc8 0xFF [] with cmd := some 0x18000000000000000000000000000012 }
    s.rst = false ∧ s.phase = .idle ∧ s.cmd = some 0x18000000000000000000000000000012 ∧ nextOf (step s) = some (waiting8 []) ∧
      (waiting8 [.ok 0]).rst = false ∧ (waiting8 [.ok 0]).busyWf = true ∧
      seen (step (waiting8 [.ok 0])) = reply .ok 0x0000 [.write 0x12 []] := by
  decide

theorem witness_StatusesOfEachCommand :
    (gxc16 regsA []).readyFor (Instr.x16RdPin 8).variant ∧
      (nextOf (exec (.x16RdPin 8) (gxc16 regsA []))).bind State.response = some .dir ∧
      (gxc16 regsA [.err nack]).readyFor (Instr.x16Rd 0x0001).variant ∧
      (nextOf (exec (.x16Rd 0x0001) (gxc16 regsA [.err nack]))).bind State.response = some (.bus nack) := by
  decide

/-- The longest command, with a late completion among the draws. -/
theorem witness_FiveCompletionsEndAnyCommand :
    let s : State := { gxc16 X16Regs.reset [.late, .ok 0, .ok 0, .ok 0, .ok 0, .ok 0] with cmd := some 0x10000001000000000000000000000000 }
    s.rst = false ∧ s.phase = .idle ∧ s.cmd = some 0x10000001000000000000000000000000 ∧
      5 ≤ (s.answers.filter Answer.counts).length ∧ (nextOf (step s)).map State.phase = some .idle := by
  decide

/-- Both clauses: a command that ends with the first batch, and one that goes on with the second. -/
theorem witness_CompletionsInBatchesAreCompletionsAtOnce :
    let s : State := { gxc16 regsA [] with cmd := some 0x20000000000000000000000000000003 }
    s.rst = false ∧ s.busyWf = true ∧ (s.phase = .idle → s.cmd.isSome = true) ∧
      (nextOf (step { s with answers := [.ok 0, .ok 0x02] })).map State.phase = some .idle ∧
      ((nextOf (step { s with answers := [.ok 0] })).bind State.outstanding) = some .read ∧
      seen (step { s with answers := [.ok 0, .ok 0x02] }) = reply .ok 0x0003 [.select 0x12, .read] := by
  decide

theorem witness_OnlyAllowedRequestsAreIssued :
    (nextOf (step { gxc16 regsA [.ok 0] with cmd := some 0x20000000000000000000000000000200 })).map State.trace =
        some [.select 0x13, .read] ∧
      (Request.select 0x13).allowed .x16 = true ∧ (Request.select 0x13).allowed .x8 = false ∧
      (Request.write 0x0A [0x00, 0x00]).allowed .x16 = false := by
  decide

/-! ### Invariants and frames -/

theorem witness_RegisterRelationsAreKept :
    let s : State := { gxc16 regsA [.ok 0, .ok 0, .ok 0, .ok 0, .ok 0] with cmd := some 0x10000001000000000000000000000002 }
    s.x16.coherent = true ∧ (nextOf (step s)).map (fun t => (t.x16.outputMask, t.x16.directionMask)) = some (0x8101, 0x7EFE) := by
  decide

theorem witness_BusyStateStaysWellFormed :
    let s : State := { gxc16 regsA [.ok 0] with cmd := some 0x20000000000000000000000000000003 }
    s.busyWf = true ∧ (nextOf (step s)).map State.busyWf = some true ∧
      (nextOf (step s)).map State.phase =
        some (.busy { word := 0x20000000000000000000000000000003, index := 1, bytes := [], accs := Accs.zero }) := by
  decide

theorem witness_VariantsShareNoState :
    (waiting8 [.ok 0]).rst = false ∧ (waiting8 [.ok 0]).variant = .x8 ∧ (waiting8 [.ok 0]).otherIdle = true ∧
      (gxc16 regsA []).variant = .x16 ∧ (gxc16 regsA []).otherIdle = true ∧
      (nextOf (step (waiting8 [.ok 0]))).map State.otherIdle = some true := by
  decide

theorem witness_CommandsWriteOnlyTheirRegisters :
    (∀ flags apply, Instr.x8Rd ≠ .x16Cfg flags apply) ∧ (∀ mask val, Instr.x8Rd ≠ .x16Wr mask val) ∧
      (∀ pin value, Instr.x8Rd ≠ .x16WrPin pin value) ∧ (∀ val, Instr.x8Rd ≠ .x8Wr val) ∧
      (∀ pin value, Instr.x8Rd ≠ .x8WrPin pin value) ∧ (∀ pin, Instr.x8Rd ≠ .x8Tgl pin) ∧
      (Config.x8CleanupCache = .setFF → Instr.x8Rd ≠ .x8Cleanup) ∧ (Instr.x8Wr 0 ≠ .x8Rd ∧ ∀ pin, Instr.x8Wr 0 ≠ .x8RdPin pin) ∧
      (∃ t, exec .x8Rd (gxc8 0x0F [.ok 0x33]) = .next t ∧ t.x8.portCache = 0x0F) ∧
      ∃ t, exec (.x8Wr 0) (gxc8 0x0F [.ok 0]) = .next t ∧ t.x8.pinCache = none :=
  ⟨nofun, nofun, nofun, nofun, nofun, nofun, fun _ => nofun, ⟨nofun, nofun⟩, ⟨_, rfl, rfl⟩, ⟨_, rfl, rfl⟩⟩

theorem witness_PinCacheIsNeverRead :
    nextOf (step ((gxc8 0xFF []).withPinCache (some 0x33))) = some ((gxc8 0xFF []).withPinCache (some 0x33)) ∧
      seen (exec (.x8RdPin 2) ((gxc8 0xFF [.ok 0x04]).withPinCache (some 0x33))) = reply .ok 0x0001 [.read] := by
  decide

theorem witness_PinCacheReadFaultsOnlyBeforeTheFirstRead :
    let s : State := { (gxc8 0xFF [.err nack]).withPinCache (some 0x33) with cmd := some 0x58000000000000000000000000000002 }
    (gxc8 0xFF [.ok 0x33]).readyFor .x8 ∧ (gxc8 0xFF [.ok 0x33]).answers = .ok 0x33 :: [] ∧
      s.rst = false ∧ s.x8.pinCache ≠ none ∧ (nextOf (step s)).map (fun t => t.x8.pinCache) = some (some 0x33) := by
  decide

/-! ### The assembler's mapping -/

theorem witness_AssembledMappingHasTheNamedFlags :
    ¬ (([(3, [.input]), (3, [.pullUp])] : List (Nat × List PinConfigFlag)).map Prod.fst).Nodup ∧
      (([(0, [.input, .pullUp, .activeLow]), (15, [.output])] : List (Nat × List PinConfigFlag)).map Prod.fst).Nodup ∧
      (∀ e ∈ ([(0, [.input, .pullUp, .activeLow]), (15, [.output])] : List (Nat × List PinConfigFlag)), e.1 < 16) ∧
      asMapping [(0, [.input, .pullUp, .activeLow]), (15, [.output])] = some 0x08000000000000000000000D := by
  decide

end Sys2Proof.Tests
end

section
/-! PROOFS. Family `00_scope.md`: the two variants share no state (R2, R3). A command writes registers of its own variant alone, a
controller runs commands of its own variant alone, so no step but a reset touches the other variant's registers. -/

namespace Sys2Proof.Machine

/-! ### The decoder accepts commands of the controller's own variant alone -/

/-- Each row of the opcode table reads a command of the row's variant. -/
theorem variant_read_of_mem_rows {r : Row} (h : r ∈ rows) (w : Word) : (r.read w).variant = r.variant := by
  simp only [rows, List.mem_cons, List.not_mem_nil, or_false] at h
  rcases h with rfl | rfl | rfl | rfl | rfl | rfl | rfl | rfl | rfl | rfl | rfl <;> rfl

theorem variant_of_decode {v : Variant} {w : Word} {i : Instr} (h : decode v w = .ok i) : i.variant = v := by
  unfold decode at h
  split at h
  · split at h
    · rename_i r hfind
      have hrow : r ∈ rows ∧ r.variant = v := by
        simpa [rowsOf] using List.mem_of_find?_eq_some hfind
      obtain rfl : r.read w = i := by simpa using h
      rw [variant_read_of_mem_rows hrow.1, hrow.2]
    · split at h <;> simp at h
  · simp at h

/-! ### States that agree on all that the controller's variant may not write -/

/-- `t` has the variant of `s`, and the registers of the other variant are in `t` what they are in `s`. -/
structure KeepsOther (s t : State) : Prop where
  variant : t.variant = s.variant
  x8 : s.variant = .x16 → t.x8 = s.x8
  x16 : s.variant = .x8 → t.x16 = s.x16

namespace KeepsOther

theorem of_frame {s t : State} (hv : t.variant = s.variant) (h16 : t.x16 = s.x16) (h8 : t.x8 = s.x8) : KeepsOther s t :=
  ⟨hv, fun _ => h8, fun _ => h16⟩

theorem of_x16_write {s t : State} (hs : s.variant = .x16) (hv : t.variant = s.variant) (h8 : t.x8 = s.x8) : KeepsOther s t :=
  ⟨hv, fun _ => h8, fun h => by simp [hs] at h⟩

theorem of_x8_write {s t : State} (hs : s.variant = .x8) (hv : t.variant = s.variant) (h16 : t.x16 = s.x16) : KeepsOther s t :=
  ⟨hv, fun h => by simp [hs] at h, fun _ => h16⟩

theorem refl (s : State) : KeepsOther s s := of_frame rfl rfl rfl

theorem trans {s t u : State} (hst : KeepsOther s t) (htu : KeepsOther t u) : KeepsOther s u where
  variant := htu.variant.trans hst.variant
  x8 h := (htu.x8 (hst.variant.trans h)).trans (hst.x8 h)
  x16 h := (htu.x16 (hst.variant.trans h)).trans (hst.x16 h)

end KeepsOther

theorem otherIdle_iff (s : State) :
    s.otherIdle = true ↔ (s.variant = .x16 → s.x8 = X8Regs.reset) ∧ (s.variant = .x8 → s.x16 = X16Regs.reset) := by
  cases hv : s.variant <;> simp [State.otherIdle, hv]

theorem KeepsOther.otherIdle {s t : State} (h : KeepsOther s t) (hs : s.otherIdle = true) : t.otherIdle = true := by
  rw [otherIdle_iff, h.variant]
  obtain ⟨h8, h16⟩ := (otherIdle_iff s).mp hs
  exact ⟨fun hv => (h.x8 hv).trans (h8 hv), fun hv => (h.x16 hv).trans (h16 hv)⟩

theorem otherIdle_applyReset (s : State) : (applyReset s).otherIdle = true := by
  simp [otherIdle_iff]

/-! ### The parts of a command write registers of its own variant alone -/

theorem keepsOther_endCommand (s : State) (r : Response) : KeepsOther s (s.endCommand r) := .of_frame rfl rfl rfl

theorem keepsOther_begin (s : State) (w : Word) : KeepsOther s (s.begin w) := .of_frame rfl rfl rfl

theorem keepsOther_acceptIllegal (w : Word) (s : State) : KeepsOther s (acceptIllegal w s) :=
  (keepsOther_begin s w).trans (keepsOther_endCommand _ _)

theorem keepsOther_prelude {i : Instr} {s : State} (h : i.variant = s.variant) : KeepsOther s (prelude i s) := by
  cases i
  case x16Cfg => exact .of_x16_write h.symm rfl rfl
  case x8Wr => exact .of_x8_write h.symm rfl rfl
  case x8WrPin => exact .of_x8_write h.symm rfl rfl
  case x8Tgl => exact .of_x8_write h.symm rfl rfl
  case x8Cleanup => exact .of_x8_write h.symm rfl rfl
  all_goals exact .refl s

theorem keepsOther_commit {i : Instr} {t : State} (h : i.variant = t.variant) (b : Busy) (s : State) (bytes : List Byte) :
    KeepsOther t ((planOf i b s).commit bytes t) := by
  rcases planOf_commit i b s bytes t with ⟨d, hc⟩ | ⟨hi, x, d, hc⟩ | ⟨hi, mask, val, hc⟩ <;> rw [hc]
  · exact keepsOther_endCommand _ _
  · exact .of_x8_write (h.symm.trans hi) rfl rfl
  · exact .of_x16_write (h.symm.trans hi) rfl rfl

theorem keepsOther_fail {i : Instr} {t : State} (h : i.variant = t.variant) (b : Busy) (s : State) (e : BusErr) :
    KeepsOther t ((planOf i b s).fail e t) := by
  rcases planOf_fail i b s e t with hf | ⟨hi, mask, val, hf⟩ <;> rw [hf]
  · exact keepsOther_endCommand _ _
  · exact .of_x16_write (h.symm.trans hi) rfl rfl

section
/-! The handshakes of a command of the controller's variant, from the state `s`: `pump_rule` with `KeepsOther s` as the property kept. `u` is
the state from which the plan was computed. -/

variable {i : Instr} {s : State} (h : i.variant = s.variant) (b : Busy) (u : State)
include h

theorem keepsOther_pump (rs : List Request) (c : Busy) : KeepsOther s (pump (planOf i b u) rs c s) := by
  cases rs with
  | nil => exact .refl s
  | cons r rest =>
    exact pump_rule (P := KeepsOther s) (planOf i b u) (r :: rest)
      (fun _ _ _ ht => ht.trans (.of_frame rfl rfl rfl)) (fun _ _ ht => ht.trans (.of_frame rfl rfl rfl))
      (fun _ _ ht => ht.trans (.of_frame rfl rfl rfl))
      (fun _ _ ht => ht.trans (keepsOther_commit (h.trans ht.variant.symm) b u _))
      (fun _ _ ht => ht.trans (keepsOther_fail (h.trans ht.variant.symm) b u _))
      (r :: rest) c s (by simp) (fun _ hq => hq) (.refl s)

theorem keepsOther_launch (c : Busy) : KeepsOther s (launch (planOf i b u) c s) := by
  cases hscript : (planOf i b u).script with
  | nil => rw [launch_nil _ _ _ hscript]; exact keepsOther_commit h b u _
  | cons r rest =>
    rw [launch_cons _ _ _ hscript]
    have hissue : KeepsOther s (s.issue r) := .of_frame rfl rfl rfl
    exact hissue.trans (keepsOther_pump (s := s.issue r) h b u (r :: rest) c)

end

/-! ### Commands and steps -/

theorem keepsOther_resume (b : Busy) (s : State) : KeepsOther s (resume b s) := by
  unfold resume
  split
  · rename_i i hdec
    exact keepsOther_pump (variant_of_decode hdec) b s _ b
  · exact .refl s

/-- A command that the controller runs is of its variant; one of the other variant ends as illegal, and one that waits does nothing. -/
theorem keepsOther_exec {i : Instr} {s t : State} (h : exec i s = .next t) : KeepsOther s t := by
  obtain ⟨run, hrun⟩ := exec_eq_accept i
  have ht : accept i run s = t := by simpa [hrun] using h
  cases hp : s.phase with
  | busy b =>
    rw [accept_busy i run s hp] at ht
    exact ht ▸ .refl s
  | idle =>
    by_cases hv : s.variant = i.variant
    · rw [exec_ready i s ⟨hp, hv⟩] at h
      injection h with h
      have hbegin := keepsOther_begin s (encode i)
      have hprelude := keepsOther_prelude (i := i) (s := s.begin (encode i)) hv.symm
      rw [← h]
      split
      · exact (hbegin.trans hprelude).trans (keepsOther_launch (hv.symm.trans hprelude.variant.symm) _ _ _)
      · exact hbegin.trans (keepsOther_endCommand _ _)
    · rw [accept_wrongVariant i run s hp hv] at ht
      exact ht ▸ keepsOther_acceptIllegal (encode i) s

theorem keepsOther_step {s t : State} (hr : s.rst = false) (h : step s = .next t) : KeepsOther s t := by
  have htake : KeepsOther s s.takeCmd := .of_frame rfl rfl rfl
  rcases step_cases h with ⟨hreset, _⟩ | ⟨_, b, _, rfl⟩ | ⟨_, _, _, rfl⟩ | ⟨_, _, w, i, _, _, hexec⟩ | ⟨_, _, w, e, _, _, rfl⟩
  · simp [hr] at hreset
  · exact keepsOther_resume b s
  · exact .of_frame rfl rfl rfl
  · exact htake.trans (keepsOther_exec hexec)
  · exact htake.trans (keepsOther_acceptIllegal w s.takeCmd)

theorem step_of_rst {s : State} (h : s.rst = true) : step s = .next (applyReset s) := by
  simp [step, h]

/-- Settles O48: a reset gives both variants' registers their reset values, and any other step is `keepsOther_step`. -/
theorem variantsShareNoState : Obligations.VariantsShareNoState := by
  intro s t h
  cases hr : s.rst with
  | true =>
    rw [step_of_rst hr] at h
    obtain rfl : applyReset s = t := by injection h
    exact ⟨applyReset_variant s, by simp, fun _ => otherIdle_applyReset s⟩
  | false =>
    have hkeep := keepsOther_step hr h
    exact ⟨hkeep.variant, fun _ => ⟨hkeep.x8, hkeep.x16⟩, hkeep.otherIdle⟩

end Sys2Proof.Machine
end

section
/-! PROOFS. Family `10_state.md`: what a command and a step make of the registers, of `BUSY` and of the ports (R20 to
R37). Three inversions carry the family: `pump_result` says what the handshakes can do, `exec_writes` and `step_writes` what a command and a
step write; and `HandshakesKeep` says when two states go through the handshakes alike. -/

namespace Sys2Proof.Machine

/-! ### The decoder reads a command's own word -/

theorem encodesInRow (i : Instr) : Laws.EncodesInRow.Statement i := by
  cases i
  case x16Cfg flags apply => exact Laws.EncodesInRow.x16Cfg flags apply
  case x16Rd mask => exact Laws.EncodesInRow.x16Rd mask
  case x16RdPin pin => exact Laws.EncodesInRow.x16RdPin pin
  case x16Wr mask val => exact Laws.EncodesInRow.x16Wr mask val
  case x16WrPin pin value => exact Laws.EncodesInRow.x16WrPin pin value
  case x8Wr val => exact Laws.EncodesInRow.x8Wr val
  case x8WrPin pin value => exact Laws.EncodesInRow.x8WrPin pin value
  case x8Tgl pin => exact Laws.EncodesInRow.x8Tgl pin
  case x8Rd => exact Laws.EncodesInRow.x8Rd
  case x8RdPin pin => exact Laws.EncodesInRow.x8RdPin pin
  case x8Cleanup => exact Laws.EncodesInRow.x8Cleanup

/-- Every row of the table fixes the opcode field and the variant bit (R85). -/
theorem rows_fix_opcode_and_variant :
    ∀ r ∈ rows, opcField r.mask = 0xF ∧ r.mask.getLsbD 123 = true ∧ r.pattern.getLsbD 123 = r.variant.bit := by
  decide

/-- Rows of one variant have different opcodes (R72). -/
theorem rowsOf_opcodes_nodup (v : Variant) : ((rowsOf v).map (fun r => opcField r.pattern)).Nodup := by
  cases v <;> decide

theorem takes_iff (r : Row) (w : Word) : r.takes w = true ↔ w &&& r.mask = r.pattern := by
  simp [Row.takes]

theorem opcField_of_takes {r : Row} {w : Word} (hr : r ∈ rows) (h : r.takes w = true) :
    opcField w = opcField r.pattern := by
  obtain ⟨hmask, -, -⟩ := rows_fix_opcode_and_variant r hr
  have hand : opcField (w &&& r.mask) = opcField w &&& opcField r.mask := BitVec.extractLsb'_and
  rw [(takes_iff r w).mp h, hmask] at hand
  rw [hand]
  exact (BitVec.and_allOnes (x := opcField w)).symm

theorem variantBit_of_takes {r : Row} {w : Word} (hr : r ∈ rows) (h : r.takes w = true) :
    w.getLsbD 123 = r.variant.bit := by
  obtain ⟨-, hmask, hpattern⟩ := rows_fix_opcode_and_variant r hr
  rw [← hpattern, ← (takes_iff r w).mp h, BitVec.getLsbD_and, hmask, Bool.and_true]

theorem mem_rowsOf {v : Variant} {r : Row} : r ∈ rowsOf v ↔ r ∈ rows ∧ r.variant = v := by
  simp [rowsOf]

/-- A word is taken by one row of a variant at most. -/
theorem row_unique_of_takes {v : Variant} {r r' : Row} {w : Word} (hr : r ∈ rowsOf v) (hr' : r' ∈ rowsOf v)
    (h : r.takes w = true) (h' : r'.takes w = true) : r = r' :=
  List.inj_on_of_nodup_map (rowsOf_opcodes_nodup v) hr hr'
    ((opcField_of_takes (mem_rowsOf.mp hr).1 h).symm.trans (opcField_of_takes (mem_rowsOf.mp hr').1 h'))

/-- The row that takes a word is the one the decoder reads it with. -/
theorem decode_of_takes {v : Variant} {r : Row} {w : Word} (hr : r ∈ rowsOf v) (h : r.takes w = true) :
    decode v w = .ok (r.read w) := by
  obtain ⟨hrow, hv⟩ := mem_rowsOf.mp hr
  have hbit : w.getLsbD 123 = v.bit := hv ▸ variantBit_of_takes hrow h
  cases hfind : (rowsOf v).find? (fun r => r.takes w) with
  | none => exact absurd h (List.find?_eq_none.mp hfind r hr)
  | some r' =>
    have htakes : r'.takes w = true := by simpa using List.find?_some hfind
    obtain rfl : r = r' := row_unique_of_takes hr (List.mem_of_find?_eq_some hfind) h htakes
    rw [decode, if_pos hbit, hfind]

theorem decode_encode (i : Instr) : decode i.variant (encode i) = .ok i := by
  obtain ⟨r, hr, htakes, hread, -⟩ := encodesInRow i
  rw [decode_of_takes hr htakes, hread]

/-! ### What the handshakes of a command can do -/

/-- `u` differs from `s` in the draws left and the requests issued alone. -/
def SameOffBus (s u : State) : Prop := ∃ as tr, u = { s with answers := as, trace := tr }

theorem SameOffBus.refl (s : State) : SameOffBus s s := ⟨_, _, rfl⟩

theorem SameOffBus.trans {s t u : State} (hst : SameOffBus s t) (htu : SameOffBus t u) : SameOffBus s u := by
  obtain ⟨_, _, rfl⟩ := hst
  obtain ⟨as, tr, rfl⟩ := htu
  exact ⟨as, tr, rfl⟩

theorem SameOffBus.variant {s u : State} (h : SameOffBus s u) : u.variant = s.variant := by obtain ⟨_, _, rfl⟩ := h; rfl
theorem SameOffBus.response {s u : State} (h : SameOffBus s u) : u.response = s.response := by obtain ⟨_, _, rfl⟩ := h; rfl
theorem SameOffBus.x16 {s u : State} (h : SameOffBus s u) : u.x16 = s.x16 := by obtain ⟨_, _, rfl⟩ := h; rfl
theorem SameOffBus.x8 {s u : State} (h : SameOffBus s u) : u.x8 = s.x8 := by obtain ⟨_, _, rfl⟩ := h; rfl

theorem sameOffBus_setAnswers (s : State) (as : List Answer) : SameOffBus s (s.setAnswers as) := ⟨_, _, rfl⟩

theorem sameOffBus_issue (s : State) (r : Request) : SameOffBus s (s.issue r) := ⟨_, _, rfl⟩

/-- `c` is what `BUSY` holds, from `b` on, when some but not all of `rs` have completed. -/
structure Follows (rs : List Request) (b c : Busy) : Prop where
  word : c.word = b.word
  accs : c.accs = b.accs
  completed : ∃ k < rs.length, c.index = b.index + k ∧ c.bytes.length = b.bytes.length + readCount (rs.take k)

theorem readCount_cons (r : Request) (rs : List Request) (x : Byte) :
    readCount (r :: rs) = (readBytes r x).length + readCount rs := by
  cases r <;> simp [readCount, Nat.add_comm]

theorem Follows.cons {r : Request} {rs : List Request} {b c : Busy} {x : Byte} (h : Follows rs (b.advance r x) c) :
    Follows (r :: rs) b c := by
  obtain ⟨k, hk, hindex, hbytes⟩ := h.completed
  refine ⟨h.word, h.accs, k + 1, by simpa using hk, ?_, ?_⟩
  · simp only [hindex, Busy.advance_index]; omega
  · simp only [hbytes, Busy.advance_bytes, List.length_append, List.take_succ_cons, readCount_cons r _ x]; omega

/-- What the transactions `rs` of a plan can make of a state: they wait, they commit, or one of them fails. -/
inductive PumpResult (p : Plan) (rs : List Request) (b : Busy) (s : State) : State → Prop where
  | waits {c : Busy} {u : State} (hu : SameOffBus s u) (hc : Follows rs b c) : PumpResult p rs b s (u.setPhase (.busy c))
  | commits {bytes : List Byte} {u : State} (hu : SameOffBus s u) : PumpResult p rs b s (p.commit bytes u)
  | fails {e : BusErr} {u : State} (hu : SameOffBus s u) : PumpResult p rs b s (p.fail e u)

theorem PumpResult.of_sameOffBus {p : Plan} {rs : List Request} {b : Busy} {s s' t : State} (hs : SameOffBus s s')
    (h : PumpResult p rs b s' t) : PumpResult p rs b s t := by
  cases h with
  | waits hu hc => exact .waits (hs.trans hu) hc
  | commits hu => exact .commits (hs.trans hu)
  | fails hu => exact .fails (hs.trans hu)

theorem PumpResult.cons {p : Plan} {r : Request} {rs : List Request} {b : Busy} {x : Byte} {s t : State}
    (h : PumpResult p rs (b.advance r x) s t) : PumpResult p (r :: rs) b s t := by
  cases h with
  | waits hu hc => exact .waits hu hc.cons
  | commits hu => exact .commits hu
  | fails hu => exact .fails hu

theorem pump_result (p : Plan) :
    ∀ (rs : List Request) (b : Busy) (s : State), rs ≠ [] → PumpResult p rs b s (pump p rs b s)
  | [], _, _, h => absurd rfl h
  | r :: rest, b, s, _ => by
    cases hn : nextAnswer s.answers with
    | none =>
      rw [pump_wait p r rest b s hn]
      exact .waits (u := s.setAnswers []) (sameOffBus_setAnswers s []) ⟨rfl, rfl, 0, by simp, rfl, rfl⟩
    | some completion =>
      obtain ⟨c, as⟩ := completion
      have htaken := sameOffBus_setAnswers s as
      cases c with
      | error e => rw [pump_err p r rest b s hn]; exact .fails htaken
      | ok x =>
        cases rest with
        | nil => rw [pump_last p r b s hn]; exact .commits htaken
        | cons r' rest =>
          rw [pump_more p r r' rest b s hn]
          exact ((pump_result p (r' :: rest) _ _ (by simp)).of_sameOffBus (htaken.trans (sameOffBus_issue _ r'))).cons

theorem launch_result (p : Plan) (b : Busy) (s : State) : PumpResult p p.script b s (launch p b s) := by
  cases hscript : p.script with
  | nil => rw [launch_nil p b s hscript]; exact .commits (.refl s)
  | cons r rest =>
    rw [launch_cons p b s hscript]
    exact (pump_result p (r :: rest) b _ (by simp)).of_sameOffBus (sameOffBus_issue s r)

/-- Going on in `BUSY`: nothing, without a transaction in flight; else what the transactions left make of the state. -/
theorem resume_result (b : Busy) (s : State) :
    resume b s = s ∨ ∃ i, decode s.variant b.word = .ok i ∧
      PumpResult (planOf i b s) ((planOf i b s).script.drop b.index) b s (resume b s) := by
  cases hdec : decode s.variant b.word with
  | error e => exact .inl (by simp [resume, hdec])
  | ok i =>
    have hresume : resume b s = pump (planOf i b s) ((planOf i b s).script.drop b.index) b s := by
      simp [resume, hdec, continuePlan]
    rw [hresume]
    by_cases hleft : (planOf i b s).script.drop b.index = []
    · exact .inl (by rw [hleft, pump_nil])
    · exact .inr ⟨i, rfl, pump_result _ _ _ _ hleft⟩

/-! ### What a command can do -/

theorem exec_busy (i : Instr) {s : State} {b : Busy} (h : s.phase = .busy b) : exec i s = .next s := by
  obtain ⟨run, hrun⟩ := exec_eq_accept i
  rw [hrun, accept_busy i run s h]

theorem exec_wrongVariant (i : Instr) {s : State} (hp : s.phase = .idle) (hv : s.variant ≠ i.variant) :
    exec i s = .next (raiseIllegal (s.begin (encode i))) := by
  obtain ⟨run, hrun⟩ := exec_eq_accept i
  rw [hrun, accept_wrongVariant i run s hp hv]

/-- The state in which an accepted command has run its transactions. -/
def launched (i : Instr) (s : State) : State :=
  launch (planOf i (startCtx i s) (prelude i (s.begin (encode i)))) (startCtx i s) (prelude i (s.begin (encode i)))

/-- What `exec` can do: wait in `BUSY`, answer an error before any transaction, or run the command's transactions. -/
theorem exec_cases {i : Instr} {s t : State} (h : exec i s = .next t) :
    ((∃ b, s.phase = .busy b) ∧ t = s) ∨
    (s.phase = .idle ∧ ∃ r, t = (s.begin (encode i)).endCommand r) ∨
    (s.readyFor i.variant ∧ t = launched i s) := by
  cases hp : s.phase with
  | busy b =>
    rw [exec_busy i hp] at h
    injection h with h
    exact .inl ⟨⟨b, rfl⟩, h.symm⟩
  | idle =>
    by_cases hv : s.variant = i.variant
    · rw [exec_ready i s ⟨hp, hv⟩] at h
      injection h with h
      split at h
      · exact .inr (.inr ⟨⟨hp, hv⟩, h.symm⟩)
      · exact .inr (.inl ⟨rfl, .dir, h.symm⟩)
    · rw [exec_wrongVariant i hp hv] at h
      injection h with h
      exact .inr (.inl ⟨rfl, .illegal, h.symm⟩)

/-! ### What the prelude leaves unchanged -/

@[simp] theorem prelude_variant (i : Instr) (s : State) : (prelude i s).variant = s.variant := by cases i <;> rfl
@[simp] theorem prelude_phase (i : Instr) (s : State) : (prelude i s).phase = s.phase := by cases i <;> rfl
@[simp] theorem prelude_response (i : Instr) (s : State) : (prelude i s).response = s.response := by cases i <;> rfl
@[simp] theorem prelude_rst (i : Instr) (s : State) : (prelude i s).rst = s.rst := by cases i <;> rfl
@[simp] theorem prelude_cmd (i : Instr) (s : State) : (prelude i s).cmd = s.cmd := by cases i <;> rfl
@[simp] theorem prelude_answers (i : Instr) (s : State) : (prelude i s).answers = s.answers := by cases i <;> rfl
@[simp] theorem prelude_trace (i : Instr) (s : State) : (prelude i s).trace = s.trace := by cases i <;> rfl
@[simp] theorem prelude_draws (i : Instr) (s : State) : (prelude i s).draws = s.draws := by cases i <;> rfl
@[simp] theorem prelude_pinCache (i : Instr) (s : State) : (prelude i s).x8.pinCache = s.x8.pinCache := by cases i <;> rfl

theorem prelude_begin (i : Instr) (s : State) (w : Word) : prelude i (s.begin w) = (prelude i s).begin w := by
  cases i <;> rfl

theorem prelude_x16 (i : Instr) (s : State) :
    (prelude i s).x16 = s.x16 ∨ ∃ flags apply, i = .x16Cfg flags apply ∧ (prelude i s).x16 = (cfgAll flags s.x16).regs := by
  cases i
  case x16Cfg flags apply => exact .inr ⟨flags, apply, rfl, rfl⟩
  all_goals exact .inl rfl

theorem prelude_portCache {i : Instr} (s : State) (hwr : ∀ val, i ≠ .x8Wr val) (hwrPin : ∀ pin value, i ≠ .x8WrPin pin value)
    (htgl : ∀ pin, i ≠ .x8Tgl pin) (hcleanup : Config.x8CleanupCache = .setFF → i ≠ .x8Cleanup) :
    (prelude i s).x8.portCache = s.x8.portCache := by
  cases i
  case x8Wr val => exact absurd rfl (hwr val)
  case x8WrPin pin value => exact absurd rfl (hwrPin pin value)
  case x8Tgl pin => exact absurd rfl (htgl pin)
  case x8Cleanup =>
    cases hcfg : Config.x8CleanupCache with
    | keep => simp [prelude, cleanupCache, hcfg]
    | setFF => exact absurd rfl (hcleanup hcfg)
  all_goals rfl

/-! ### What `X16.CFG` makes of the registers -/

/-- The registers with bits `a`, `m` and `o` added to the active-low, the input and the output pins. -/
def X16Regs.withPins (r : X16Regs) (a m o : Mask16) : X16Regs :=
  { activeLowMask := r.activeLowMask ||| a
    inputMask := r.inputMask ||| m
    outputMask := r.outputMask ||| o
    directionMask := r.directionMask &&& ~~~o
    outputCache := r.outputCache }

theorem and_allOnes16 (v : Mask16) : v &&& 0xFFFF#16 = v := BitVec.and_allOnes

/-- `r'` is `r` with bits added to the configuration masks, each output bit added taken out of `directionMask`. -/
def Configures (r r' : X16Regs) : Prop := ∃ a m o, r' = r.withPins a m o

theorem Configures.refl (r : X16Regs) : Configures r r := ⟨0, 0, 0, by simp [X16Regs.withPins, and_allOnes16]⟩

theorem Configures.trans {r r' r'' : X16Regs} (h : Configures r r') (h' : Configures r' r'') : Configures r r'' := by
  obtain ⟨a, m, o, rfl⟩ := h
  obtain ⟨a', m', o', rfl⟩ := h'
  exact ⟨a ||| a', m ||| m', o ||| o', by simp [X16Regs.withPins, BitVec.or_assoc, BitVec.and_assoc, BitVec.not_or]⟩

theorem cfgActiveLow_configures (f : PinFlags) (p : Nat) (c : CfgFold) : Configures c.regs (cfgActiveLow f p c).regs := by
  unfold cfgActiveLow
  split
  · exact ⟨bit16 p, 0, 0, by simp [X16Regs.withPins, and_allOnes16]⟩
  · exact .refl _

theorem cfgInput_configures (f : PinFlags) (p : Nat) (c : CfgFold) : Configures c.regs (cfgInput f p c).regs :=
  ⟨0, bit16 p, 0, by simp [cfgInput, X16Regs.withPins, and_allOnes16]⟩

theorem cfgOutput_configures (p : Nat) (c : CfgFold) : Configures c.regs (cfgOutput p c).regs :=
  ⟨0, 0, bit16 p, by simp [cfgOutput, X16Regs.withPins]⟩

theorem cfgPin_configures (flags : BitVec 96) (c : CfgFold) (p : Nat) : Configures c.regs (cfgPin flags c p).regs := by
  have hactive := cfgActiveLow_configures (pinFlags flags p) p c
  simp only [cfgPin]
  split_ifs
  · exact hactive.trans (cfgInput_configures _ p _)
  · exact hactive.trans (cfgOutput_configures p _)
  · exact hactive

theorem cfgPins_configures (flags : BitVec 96) (pins : List Nat) (c : CfgFold) :
    Configures c.regs (cfgPins flags pins c).regs := by
  induction pins generalizing c with
  | nil => exact .refl _
  | cons p ps ih => exact (cfgPin_configures flags c p).trans (ih _)

theorem prelude_configures (i : Instr) (s : State) : Configures s.x16 (prelude i s).x16 := by
  rcases prelude_x16 i s with hx | ⟨flags, _, _, hx⟩ <;> rw [hx]
  · exact .refl _
  · exact cfgPins_configures flags (List.range 16) _

/-! ### What a command's transactions write -/

/-- The commands that write `outputCache` and draw the free value of R144. -/
def mergesOutput : Instr → Bool
  | .x16Wr _ _ => true
  | .x16WrPin _ _ => true
  | _ => false

/-- The commands that write `pinCache` (R32). -/
def readsPins : Instr → Bool
  | .x8Rd => true
  | .x8RdPin _ => true
  | _ => false

/-- What the transactions of command `i` may have written when they lead from `s` to `t`. -/
structure BusWrites (i : Instr) (s t : State) : Prop where
  rst : t.rst = s.rst
  cmd : t.cmd = s.cmd
  x16 : t.x16 = s.x16 ∨ mergesOutput i = true ∧
    ∃ mask val, t.x16 = { s.x16 with outputCache := wrMerge (wrMask mask s.x16) val s.x16 }
  x8 : t.x8 = s.x8 ∨ readsPins i = true ∧ ∃ x, t.x8 = { s.x8 with pinCache := some x }
  draws : t.draws = s.draws ∨ mergesOutput i = true

theorem BusWrites.refl (i : Instr) (s : State) : BusWrites i s s := ⟨rfl, rfl, .inl rfl, .inl rfl, .inl rfl⟩

theorem busWrites_commit (i : Instr) (b : Busy) (s : State) (bytes : List Byte) {u : State} (hu : SameOffBus s u) :
    BusWrites i s ((planOf i b s).commit bytes u) := by
  obtain ⟨as, tr, rfl⟩ := hu
  cases i
  case x16Wr mask val => exact ⟨rfl, rfl, .inr ⟨rfl, mask, val, rfl⟩, .inl rfl, .inl rfl⟩
  case x16WrPin pin value =>
    exact ⟨rfl, rfl, .inr ⟨rfl, bit16 pin.toNat, pinLevel pin value, rfl⟩, .inl rfl, .inl rfl⟩
  case x8Rd => exact ⟨rfl, rfl, .inl rfl, .inr ⟨rfl, byteAt bytes 0, rfl⟩, .inl rfl⟩
  case x8RdPin pin => exact ⟨rfl, rfl, .inl rfl, .inr ⟨rfl, byteAt bytes 0, rfl⟩, .inl rfl⟩
  all_goals exact ⟨rfl, rfl, .inl rfl, .inl rfl, .inl rfl⟩

/-- Both values that R144 allows `outputCache` after a failed masked write are among what the command may write. -/
theorem busWrites_failWrite {i : Instr} (hi : mergesOutput i = true) (mask val : Mask16) (e : BusErr) {s u : State}
    (hu : SameOffBus s u) : BusWrites i s (failWrite (wrMerge (wrMask mask s.x16) val s.x16) e u) := by
  obtain ⟨as, tr, rfl⟩ := hu
  refine ⟨rfl, rfl, ?_, .inl rfl, .inr hi⟩
  cases hdraw : Config.failedWriteTakesNew s.draws
  · exact .inl (by simp [failWrite, hdraw])
  · exact .inr ⟨hi, mask, val, by simp [failWrite, hdraw]⟩

theorem busWrites_fail (i : Instr) (b : Busy) (s : State) (e : BusErr) {u : State} (hu : SameOffBus s u) :
    BusWrites i s ((planOf i b s).fail e u) := by
  cases i
  case x16Wr mask val => exact busWrites_failWrite rfl mask val e hu
  case x16WrPin pin value => exact busWrites_failWrite rfl (bit16 pin.toNat) (pinLevel pin value) e hu
  all_goals
    obtain ⟨as, tr, rfl⟩ := hu
    exact ⟨rfl, rfl, .inl rfl, .inl rfl, .inl rfl⟩

theorem PumpResult.busWrites {i : Instr} {rs : List Request} {b b' : Busy} {s t : State}
    (h : PumpResult (planOf i b s) rs b' s t) : BusWrites i s t := by
  cases h with
  | waits hu hc =>
    obtain ⟨as, tr, rfl⟩ := hu
    exact ⟨rfl, rfl, .inl rfl, .inl rfl, .inl rfl⟩
  | commits hu => exact busWrites_commit i b s _ hu
  | fails hu => exact busWrites_fail i b s _ hu

/-- Beginning a command writes no register. -/
theorem BusWrites.of_begin {i : Instr} {s t : State} {w : Word} (h : BusWrites i (s.begin w) t) : BusWrites i s t :=
  ⟨h.rst, h.cmd, h.x16, h.x8, h.draws⟩

theorem exec_writes {i : Instr} {s t : State} (h : exec i s = .next t) : BusWrites i s t ∨ BusWrites i (prelude i s) t := by
  rcases exec_cases h with ⟨-, rfl⟩ | ⟨-, r, rfl⟩ | ⟨-, rfl⟩
  · exact .inl (.refl i t)
  · exact .inl ⟨rfl, rfl, .inl rfl, .inl rfl, .inl rfl⟩
  · have hbus := (launch_result (planOf i (startCtx i s) (prelude i (s.begin (encode i)))) (startCtx i s) _).busWrites
    rw [prelude_begin i s] at hbus
    exact .inr (by rw [launched, prelude_begin i s]; exact hbus.of_begin)

/-- What a step without the reset input can make of the registers: nothing, or what a command writes. -/
theorem step_writes {s t : State} (hr : s.rst = false) (h : step s = .next t) :
    (t.x16 = s.x16 ∧ t.x8 = s.x8) ∨
    ∃ i u, u.x16 = s.x16 ∧ u.x8 = s.x8 ∧ (BusWrites i u t ∨ BusWrites i (prelude i u) t) := by
  rcases step_cases h with ⟨hreset, -⟩ | ⟨-, b, -, rfl⟩ | ⟨-, -, -, rfl⟩ | ⟨-, -, w, i, -, -, hexec⟩ | ⟨-, -, w, e, -, -, rfl⟩
  · simp [hr] at hreset
  · rcases resume_result b s with hsame | ⟨i, -, hresult⟩
    · exact .inl (by simp [hsame])
    · exact .inr ⟨i, s, rfl, rfl, .inl hresult.busWrites⟩
  · exact .inl ⟨rfl, rfl⟩
  · exact .inr ⟨i, s.takeCmd, rfl, rfl, exec_writes hexec⟩
  · exact .inl ⟨rfl, rfl⟩

/-! ### The relations of R29 -/

theorem coherent_iff (r : X16Regs) :
    r.coherent = true ↔ r.directionMask = ~~~r.outputMask ∧ r.outputCache &&& ~~~r.outputMask = 0 := by
  simp [X16Regs.coherent]

theorem Configures.coherent {r r' : X16Regs} (h : Configures r r') (hr : r.coherent = true) : r'.coherent = true := by
  obtain ⟨a, m, o, rfl⟩ := h
  obtain ⟨hdirection, hcache⟩ := (coherent_iff r).mp hr
  refine (coherent_iff _).mpr ⟨?_, ?_⟩
  · simp only [X16Regs.withPins, hdirection, BitVec.not_or]
  · simp only [X16Regs.withPins, BitVec.not_or, ← BitVec.and_assoc, hcache]
    exact BitVec.zero_and

/-- A merge under `MASK & outputMask` sets no bit outside `outputMask` that was not set before. -/
theorem wrMerge_and_not_outputMask (mask val : Mask16) (r : X16Regs) (h : r.outputCache &&& ~~~r.outputMask = 0) :
    wrMerge (wrMask mask r) val r &&& ~~~r.outputMask = 0 := by
  apply BitVec.eq_of_getLsbD_eq
  intro i hi
  have hbit : (r.outputCache.getLsbD i && !r.outputMask.getLsbD i) = false := by
    simpa [hi] using congrArg (fun v : Mask16 => v.getLsbD i) h
  cases hout : r.outputMask.getLsbD i
  · have hcache : r.outputCache.getLsbD i = false := by simpa [hout] using hbit
    simp only [wrMerge, wrMask, BitVec.getLsbD_and, BitVec.getLsbD_or, hout, hcache]
    simp
  · simp only [BitVec.getLsbD_and, BitVec.getLsbD_not, hout]
    simp

theorem BusWrites.coherent {i : Instr} {s t : State} (h : BusWrites i s t) (hs : s.x16.coherent = true) :
    t.x16.coherent = true := by
  rcases h.x16 with hx | ⟨-, mask, val, hx⟩ <;> rw [hx]
  · exact hs
  · obtain ⟨hdirection, hcache⟩ := (coherent_iff s.x16).mp hs
    exact (coherent_iff _).mpr ⟨hdirection, wrMerge_and_not_outputMask mask val s.x16 hcache⟩

theorem coherent_reset : X16Regs.reset.coherent = true := by decide

/-- Settles O46: reset restores the relations, `X16.CFG` moves `outputMask` and `directionMask` together, and a masked write merges under
`outputMask`; no other write touches the three registers. -/
theorem registerRelationsAreKept : Obligations.RegisterRelationsAreKept := by
  intro s t hs h
  cases hr : s.rst with
  | true =>
    rw [step_of_rst hr] at h
    obtain rfl : applyReset s = t := by injection h
    exact coherent_reset
  | false =>
    rcases step_writes hr h with ⟨hx, -⟩ | ⟨i, u, hx, -, hbus | hbus⟩
    · rwa [hx]
    · exact hbus.coherent (hx ▸ hs)
    · exact hbus.coherent ((prelude_configures i u).coherent (hx ▸ hs))

/-! ### The configuration masks only accumulate -/

/-- No bit of the configuration is taken back from `r` to `r'`: the bits set stay, those of `directionMask` that are clear stay clear. -/
structure Accumulates (r r' : X16Regs) : Prop where
  inputMask : r.inputMask &&& ~~~r'.inputMask = 0
  outputMask : r.outputMask &&& ~~~r'.outputMask = 0
  activeLowMask : r.activeLowMask &&& ~~~r'.activeLowMask = 0
  directionMask : r'.directionMask &&& ~~~r.directionMask = 0

theorem and_not_or_self (v w : Mask16) : v &&& ~~~(v ||| w) = 0 := by
  rw [BitVec.not_or, ← BitVec.and_assoc, BitVec.and_not_self]
  exact BitVec.zero_and

theorem and_and_not_self (v w : Mask16) : (v &&& w) &&& ~~~v = 0 := by
  rw [BitVec.and_comm v, BitVec.and_assoc, BitVec.and_not_self]
  exact BitVec.and_zero

theorem Configures.accumulates {r r' : X16Regs} (h : Configures r r') : Accumulates r r' := by
  obtain ⟨a, m, o, rfl⟩ := h
  exact ⟨and_not_or_self _ m, and_not_or_self _ o, and_not_or_self _ a, and_and_not_self _ _⟩

/-- A command's transactions write no configuration mask. -/
theorem BusWrites.masks {i : Instr} {s t : State} (h : BusWrites i s t) : ∃ v, t.x16 = { s.x16 with outputCache := v } := by
  rcases h.x16 with hx | ⟨-, mask, val, hx⟩
  · exact ⟨s.x16.outputCache, hx⟩
  · exact ⟨_, hx⟩

theorem BusWrites.accumulates {i : Instr} {s t : State} {r : X16Regs} (h : BusWrites i s t) (hr : Accumulates r s.x16) :
    Accumulates r t.x16 := by
  obtain ⟨v, hx⟩ := h.masks
  rw [hx]
  exact ⟨hr.inputMask, hr.outputMask, hr.activeLowMask, hr.directionMask⟩

/-- Settles O22: without the reset input the prelude of `X16.CFG` alone writes the masks, and it only adds pins to them. -/
theorem configurationOnlyAccumulates : Obligations.ConfigurationOnlyAccumulates := by
  intro s t hr h
  have haccumulates : Accumulates s.x16 t.x16 := by
    rcases step_writes hr h with ⟨hx, -⟩ | ⟨i, u, hx, -, hbus | hbus⟩
    · exact hx ▸ (Configures.refl _).accumulates
    · exact hbus.accumulates (hx ▸ (Configures.refl _).accumulates)
    · exact hbus.accumulates (hx ▸ (prelude_configures i u).accumulates)
  obtain ⟨hinput, houtput, hactive, hdirection⟩ := haccumulates
  exact ⟨hinput, houtput, hactive, hdirection⟩

/-! ### `BUSY` stays well formed -/

/-- The plan reads of the `BUSY` context the accumulators alone, and of the state the registers without `pinCache` alone. -/
theorem planOf_congr (i : Instr) {b c : Busy} {s t : State} (ha : c.accs = b.accs) (h16 : t.x16 = s.x16)
    (h8 : t.x8.portCache = s.x8.portCache) : planOf i c t = planOf i b s := by
  cases i <;>
    simp only [planOf, planX16Cfg, planX16Wr, planX16WrPin, ha, h16, h8]

theorem busyWf_of_idle {s : State} (h : s.phase = .idle) : s.busyWf = true := by
  simp [State.busyWf, h]

theorem busyWf_iff_of_busy {s : State} {b : Busy} {i : Instr} (h : s.phase = .busy b)
    (hdec : decode s.variant b.word = .ok i) :
    s.busyWf = true ↔ s.response = none ∧ b.index < (planOf i b s).script.length ∧
      b.bytes.length = readCount ((planOf i b s).script.take b.index) := by
  simp [State.busyWf, h, hdec, and_assoc]

theorem readCount_append (rs rs' : List Request) : readCount (rs ++ rs') = readCount rs + readCount rs' := by
  induction rs with
  | nil => simp [readCount]
  | cons r rs ih => rw [List.cons_append, readCount_cons r _ 0, readCount_cons r _ 0, ih, Nat.add_assoc]

theorem planOf_commit_phase (i : Instr) (b : Busy) (s : State) (bytes : List Byte) (t : State) :
    ((planOf i b s).commit bytes t).phase = .idle := by
  rcases planOf_commit i b s bytes t with ⟨d, h⟩ | ⟨-, x, d, h⟩ | ⟨-, mask, val, h⟩ <;> rw [h, State.endCommand_phase]

theorem planOf_fail_phase (i : Instr) (b : Busy) (s : State) (e : BusErr) (t : State) :
    ((planOf i b s).fail e t).phase = .idle := by
  rcases planOf_fail i b s e t with h | ⟨-, mask, val, h⟩ <;> rw [h, State.endCommand_phase]

/-- Transactions that start with one byte kept for each read completed end the command or wait so again. -/
theorem PumpResult.busyWf {i : Instr} {b : Busy} {s t : State}
    (h : PumpResult (planOf i b s) ((planOf i b s).script.drop b.index) b s t)
    (hdec : decode s.variant b.word = .ok i) (hresponse : s.response = none)
    (hbytes : b.bytes.length = readCount ((planOf i b s).script.take b.index)) : t.busyWf = true := by
  cases h with
  | commits hu => exact busyWf_of_idle (planOf_commit_phase i b s _ _)
  | fails hu => exact busyWf_of_idle (planOf_fail_phase i b s _ _)
  | @waits c u hu hc =>
    obtain ⟨k, hk, hindex, hread⟩ := hc.completed
    have hplan : planOf i c (u.setPhase (.busy c)) = planOf i b s :=
      planOf_congr i hc.accs hu.x16 (congrArg X8Regs.portCache hu.x8)
    have hword : decode (u.setPhase (.busy c)).variant c.word = .ok i := by
      rw [State.setPhase_variant, hu.variant, hc.word, hdec]
    rw [busyWf_iff_of_busy rfl hword, hplan]
    refine ⟨hu.response.trans hresponse, ?_, ?_⟩
    · rw [List.length_drop] at hk
      omega
    · rw [hindex, List.take_add, readCount_append, hread, hbytes]

theorem busyWf_resume {s : State} {b : Busy} (hp : s.phase = .busy b) (hs : s.busyWf = true) : (resume b s).busyWf = true := by
  rcases resume_result b s with hsame | ⟨i, hdec, hresult⟩
  · rwa [hsame]
  · obtain ⟨hresponse, -, hbytes⟩ := (busyWf_iff_of_busy hp hdec).mp hs
    exact hresult.busyWf hdec hresponse hbytes

theorem busyWf_exec {i : Instr} {s t : State} (hp : s.phase = .idle) (h : exec i s = .next t) : t.busyWf = true := by
  rcases exec_cases h with ⟨-, rfl⟩ | ⟨-, r, rfl⟩ | ⟨⟨-, hv⟩, rfl⟩
  · exact busyWf_of_idle hp
  · exact busyWf_of_idle rfl
  · have hdec : decode (prelude i (s.begin (encode i))).variant (startCtx i s).word = .ok i := by
      simp [hv, decode_encode]
    have hresult := launch_result (planOf i (startCtx i s) (prelude i (s.begin (encode i)))) (startCtx i s)
      (prelude i (s.begin (encode i)))
    exact PumpResult.busyWf (by simpa [launched] using hresult) hdec (by simp) (by simp [readCount])

/-- Settles O47: the transactions in flight are the rest of the script after `index`, both when a command starts and when it goes on. -/
theorem busyStateStaysWellFormed : Obligations.BusyStateStaysWellFormed := by
  intro s t hs h
  rcases step_cases h with ⟨-, rfl⟩ | ⟨-, b, hp, rfl⟩ | ⟨-, hp, -, rfl⟩ | ⟨-, hp, w, i, -, -, hexec⟩ | ⟨-, -, w, e, -, -, rfl⟩
  · exact busyWf_of_idle rfl
  · exact busyWf_resume hp hs
  · exact busyWf_of_idle hp
  · exact busyWf_exec (s := s.takeCmd) hp hexec
  · exact busyWf_of_idle rfl

/-! ### The branches of a step without the reset input -/

section
variable {s : State} (hr : s.rst = false)
include hr

theorem step_of_busy {b : Busy} (hp : s.phase = .busy b) : step s = .next (resume b s) := by
  simp [step, hr, hp]

theorem step_of_noCmd (hp : s.phase = .idle) (hc : s.cmd = none) : step s = .next (idleWait s) := by
  simp [step, hr, hp, hc]

theorem step_of_decoded {w : Word} {i : Instr} (hp : s.phase = .idle) (hc : s.cmd = some w) (hdec : decode s.variant w = .ok i) :
    step s = exec i s.takeCmd := by
  simp [step, hr, hp, hc, hdec]

theorem step_of_illegal {w : Word} {e : Illegal} (hp : s.phase = .idle) (hc : s.cmd = some w)
    (hdec : decode s.variant w = .error e) : step s = .next (acceptIllegal w s.takeCmd) := by
  simp [step, hr, hp, hc, hdec]

end

/-- Settles O6: the step's branch for a presented word that decodes. -/
theorem stepRunsTheDecodedCommand : Obligations.StepRunsTheDecodedCommand :=
  fun _ _ _ hr hp hc hdec => step_of_decoded hr hp hc hdec

/-! ### States that the handshakes cannot tell apart -/

/-- A relation between states that the handshakes of every command keep, since they read nothing in which related states differ. -/
structure HandshakesKeep (R : State → State → Prop) : Prop where
  variant {s t : State} : R s t → t.variant = s.variant
  answers {s t : State} : R s t → t.answers = s.answers
  plan {s t : State} (i : Instr) (b : Busy) : R s t → planOf i b t = planOf i b s
  setAnswers {s t : State} (as : List Answer) : R s t → R (s.setAnswers as) (t.setAnswers as)
  setPhase {s t : State} (p : Phase) : R s t → R (s.setPhase p) (t.setPhase p)
  issue {s t : State} (r : Request) : R s t → R (s.issue r) (t.issue r)
  commit {s t : State} (i : Instr) (b : Busy) (u : State) (bytes : List Byte) : R s t →
    R ((planOf i b u).commit bytes s) ((planOf i b u).commit bytes t)
  fail {s t : State} (i : Instr) (b : Busy) (u : State) (e : BusErr) : R s t →
    R ((planOf i b u).fail e s) ((planOf i b u).fail e t)

section
variable {R : State → State → Prop} (hR : HandshakesKeep R)
include hR

theorem HandshakesKeep.pump (i : Instr) (c : Busy) (u : State) :
    ∀ (rs : List Request) (b : Busy) {s t : State}, R s t → R (pump (planOf i c u) rs b s) (pump (planOf i c u) rs b t)
  | [], _, _, _, h => h
  | r :: rest, b, s, t, h => by
    have hanswers := hR.answers h
    cases hn : nextAnswer s.answers with
    | none =>
      rw [pump_wait _ r rest b s hn, pump_wait _ r rest b t (by rw [hanswers, hn])]
      exact hR.setAnswers [] (hR.setPhase _ h)
    | some completion =>
      obtain ⟨answer, as⟩ := completion
      have htaken := hR.setAnswers as h
      cases answer with
      | error e =>
        rw [pump_err _ r rest b s hn, pump_err _ r rest b t (by rw [hanswers, hn])]
        exact hR.fail i c u e htaken
      | ok x =>
        cases rest with
        | nil =>
          rw [pump_last _ r b s hn, pump_last _ r b t (by rw [hanswers, hn])]
          exact hR.commit i c u _ htaken
        | cons r' rest =>
          rw [pump_more _ r r' rest b s hn, pump_more _ r r' rest b t (by rw [hanswers, hn])]
          exact HandshakesKeep.pump i c u (r' :: rest) _ (hR.issue r' htaken)

theorem HandshakesKeep.launch (i : Instr) (c : Busy) (u : State) (b : Busy) {s t : State} (h : R s t) :
    R (launch (planOf i c u) b s) (launch (planOf i c u) b t) := by
  cases hscript : (planOf i c u).script with
  | nil =>
    rw [launch_nil _ b s hscript, launch_nil _ b t hscript]
    exact hR.commit i c u _ h
  | cons r rest =>
    rw [launch_cons _ b s hscript, launch_cons _ b t hscript]
    exact hR.pump i c u _ b (hR.issue r h)

theorem HandshakesKeep.resume (b : Busy) {s t : State} (h : R s t) : R (resume b s) (resume b t) := by
  cases hdec : decode s.variant b.word with
  | error e => simpa [Machine.resume, hR.variant h, hdec] using h
  | ok i =>
    simp only [Machine.resume, hR.variant h, hdec, continuePlan, hR.plan i b h]
    exact hR.pump i b s _ b h

end

/-! ### The command port in `BUSY` -/

/-- `t` is `s` with `c` on the command port. -/
def WithCmd (c : Option Word) (s t : State) : Prop := t = { s with cmd := c }

theorem handshakesKeep_withCmd (c : Option Word) : HandshakesKeep (WithCmd c) where
  variant := by rintro s _ rfl; rfl
  answers := by rintro s _ rfl; rfl
  plan := by rintro s _ i b rfl; exact planOf_congr i rfl rfl rfl
  setAnswers := by rintro s _ as rfl; rfl
  setPhase := by rintro s _ p rfl; rfl
  issue := by rintro s _ r rfl; rfl
  commit := by rintro s _ i b u bytes rfl; cases i <;> rfl
  fail := by rintro s _ i b u e rfl; cases i <;> rfl

/-- Settles O9: the handshakes that `BUSY` goes on with neither read nor write the command port. -/
theorem commandWaitsWhileBusy : Obligations.CommandWaitsWhileBusy := by
  intro s b hp
  refine ⟨?_, fun i => exec_busy i hp, fun hr c => ⟨resume b s, step_of_busy hr hp, ?_⟩⟩
  · rw [State.cmdReady, hp]; rfl
  · have hport : resume b { s with cmd := c } = { resume b s with cmd := c } := (handshakesKeep_withCmd c).resume b rfl
    rw [step_of_busy (s := { s with cmd := c }) hr hp, hport]

/-! ### `pinCache` is not read -/

/-- `t` differs from `s` in `pinCache` alone. -/
def DiffersInPinCache (s t : State) : Prop := ∃ q, t = s.withPinCache q

theorem DiffersInPinCache.intro (s : State) (q : Option Byte) : DiffersInPinCache s (s.withPinCache q) := ⟨q, rfl⟩

/-- A read that succeeds leaves both states with the byte read, every other command with the values they had. -/
theorem differsInPinCache_commit (i : Instr) (b : Busy) (u : State) (bytes : List Byte) (s : State) (q : Option Byte) :
    DiffersInPinCache ((planOf i b u).commit bytes s) ((planOf i b u).commit bytes (s.withPinCache q)) := by
  cases i
  case x8Rd => exact .intro _ (some (byteAt bytes 0))
  case x8RdPin pin => exact .intro _ (some (byteAt bytes 0))
  all_goals exact .intro _ q

theorem differsInPinCache_fail (i : Instr) (b : Busy) (u : State) (e : BusErr) (s : State) (q : Option Byte) :
    DiffersInPinCache ((planOf i b u).fail e s) ((planOf i b u).fail e (s.withPinCache q)) := by
  cases i <;> exact .intro _ q

theorem handshakesKeep_differsInPinCache : HandshakesKeep DiffersInPinCache where
  variant := by rintro s _ ⟨q, rfl⟩; rfl
  answers := by rintro s _ ⟨q, rfl⟩; rfl
  plan := by rintro s _ i b ⟨q, rfl⟩; exact planOf_congr i rfl rfl rfl
  setAnswers := by rintro s _ as ⟨q, rfl⟩; exact .intro _ q
  setPhase := by rintro s _ p ⟨q, rfl⟩; exact .intro _ q
  issue := by rintro s _ r ⟨q, rfl⟩; exact .intro _ q
  commit := by rintro s _ i b u bytes ⟨q, rfl⟩; exact differsInPinCache_commit i b u bytes s q
  fail := by rintro s _ i b u e ⟨q, rfl⟩; exact differsInPinCache_fail i b u e s q

theorem startCtx_withPinCache (i : Instr) (s : State) (q : Option Byte) : startCtx i (s.withPinCache q) = startCtx i s := by
  cases i <;> rfl

theorem passesCheck_withPinCache (i : Instr) (s : State) (q : Option Byte) :
    passesCheck i (s.withPinCache q) = passesCheck i s := by
  cases i <;> rfl

theorem prelude_withPinCache (i : Instr) (s : State) (q : Option Byte) :
    prelude i (s.withPinCache q) = (prelude i s).withPinCache q := by
  cases i <;> rfl

theorem begin_withPinCache (s : State) (w : Word) (q : Option Byte) :
    (s.withPinCache q).begin w = (s.begin w).withPinCache q := rfl

theorem launched_withPinCache (i : Instr) (s : State) (q : Option Byte) :
    DiffersInPinCache (launched i s) (launched i (s.withPinCache q)) := by
  have hprelude : DiffersInPinCache (prelude i (s.begin (encode i))) (prelude i ((s.withPinCache q).begin (encode i))) := by
    rw [begin_withPinCache, prelude_withPinCache]
    exact .intro _ q
  rw [launched, launched, startCtx_withPinCache, handshakesKeep_differsInPinCache.plan i _ hprelude]
  exact handshakesKeep_differsInPinCache.launch i _ _ _ hprelude

theorem exec_withPinCache {i : Instr} {s t : State} (h : exec i s = .next t) (p : Option Byte) :
    ∃ q, exec i (s.withPinCache p) = .next (t.withPinCache q) := by
  cases hp : s.phase with
  | busy b =>
    rw [exec_busy i hp] at h
    injection h with h
    exact ⟨p, h ▸ exec_busy i (s := s.withPinCache p) hp⟩
  | idle =>
    by_cases hv : s.variant = i.variant
    · have hs : s.readyFor i.variant := ⟨hp, hv⟩
      rw [exec_ready i s hs] at h
      injection h with h
      rw [exec_ready i (s.withPinCache p) hs, passesCheck_withPinCache]
      subst h
      split
      · obtain ⟨q, hq⟩ := launched_withPinCache i s p
        exact ⟨q, congrArg _ hq⟩
      · exact ⟨p, rfl⟩
    · rw [exec_wrongVariant i hp hv] at h
      injection h with h
      exact ⟨p, h ▸ exec_wrongVariant i (s := s.withPinCache p) hp hv⟩

/-- Settles O51: neither the choice of what a step does nor anything that it then runs reads `pinCache`. -/
theorem pinCacheIsNeverRead : Obligations.PinCacheIsNeverRead := by
  intro s t p h
  rcases step_cases h with ⟨hr, rfl⟩ | ⟨hr, b, hp, rfl⟩ | ⟨hr, hp, hc, rfl⟩ | ⟨hr, hp, w, i, hc, hdec, hexec⟩ |
    ⟨hr, hp, w, e, hc, hdec, rfl⟩
  · exact ⟨X8Regs.reset.pinCache, step_of_rst (s := s.withPinCache p) hr⟩
  · obtain ⟨q, hq⟩ := handshakesKeep_differsInPinCache.resume b (.intro s p)
    exact ⟨q, by rw [step_of_busy (s := s.withPinCache p) hr hp, hq]⟩
  · exact ⟨p, step_of_noCmd (s := s.withPinCache p) hr hp hc⟩
  · obtain ⟨q, hq⟩ := exec_withPinCache hexec p
    exact ⟨q, (step_of_decoded (s := s.withPinCache p) hr hp hc hdec).trans hq⟩
  · exact ⟨p, step_of_illegal (s := s.withPinCache p) hr hp hc hdec⟩

/-! ### Reading `pinCache` -/

theorem readPinCache_error_iff (s : State) : readPinCache s = .error .pinCacheEmpty ↔ s.x8.pinCache = none := by
  cases hcache : s.x8.pinCache <;> simp [readPinCache, hcache]

theorem readPinCache_ok_iff (s : State) (b : Byte) : readPinCache s = .ok b ↔ s.x8.pinCache = some b := by
  cases hcache : s.x8.pinCache <;> simp [readPinCache, hcache]

/-- A GXC8 read whose one transaction completes with `x` leaves `x` in `pinCache`. -/
theorem launch_planReadPort_pinCache (data : Byte → Mask16) {b : Busy} {s : State} {x : Byte} {rest : List Answer}
    (hb : b.bytes = []) (ha : s.answers = .ok x :: rest) : (launch (planReadPort data) b s).x8.pinCache = some x := by
  have hnext : nextAnswer (s.issue .read).answers = some (.ok x, rest) := by simp [ha]
  rw [launch_cons (planReadPort data) b s rfl, pump_last _ .read b _ hnext]
  simp [planReadPort, hb, byteAt]

theorem BusWrites.pinCache_ne_none {i : Instr} {s t : State} (h : BusWrites i s t) (hs : s.x8.pinCache ≠ none) :
    t.x8.pinCache ≠ none := by
  rcases h.x8 with hx | ⟨-, x, hx⟩ <;> rw [hx]
  · exact hs
  · simp

/-- No step without the reset input takes the value of `pinCache` away. -/
theorem step_pinCache_ne_none {s t : State} (hr : s.rst = false) (hs : s.x8.pinCache ≠ none) (h : step s = .next t) :
    t.x8.pinCache ≠ none := by
  rcases step_writes hr h with ⟨-, hx⟩ | ⟨i, u, -, hx, hbus | hbus⟩
  · rwa [hx]
  · exact hbus.pinCache_ne_none (hx ▸ hs)
  · exact hbus.pinCache_ne_none (by rwa [prelude_pinCache, hx])

/-- Settles O52: the accessor reads the option, a completed GXC8 read fills it, and only the reset input empties it. -/
theorem pinCacheReadFaultsOnlyBeforeTheFirstRead : Obligations.PinCacheReadFaultsOnlyBeforeTheFirstRead := by
  refine ⟨fun s => ⟨readPinCache_error_iff s, readPinCache_ok_iff s⟩, fun v => rfl, fun s b rest hs ha => ⟨?_, fun pin => ?_⟩,
    fun s t hr hs h => step_pinCache_ne_none hr hs h⟩
  · exact ⟨_, exec_ready .x8Rd s hs, (readPinCache_ok_iff _ b).mpr (launch_planReadPort_pinCache _ rfl ha)⟩
  · exact ⟨_, exec_ready (.x8RdPin pin) s hs, (readPinCache_ok_iff _ b).mpr (launch_planReadPort_pinCache _ rfl ha)⟩

/-! ### Which command writes which register -/

section
/-! `u` is the state from which the transactions of a command `i` accepted in `s` write: `s` itself or `s` after the prelude. -/

variable {i : Instr} {s u : State} (hu : u = s ∨ u = prelude i s)
include hu

theorem base_x16 (hi : ∀ flags apply, i ≠ .x16Cfg flags apply) : u.x16 = s.x16 := by
  rcases hu with rfl | rfl
  · rfl
  · rcases prelude_x16 i s with hx | ⟨flags, apply, hcfg, -⟩
    · exact hx
    · exact absurd hcfg (hi flags apply)

theorem base_outputCache : u.x16.outputCache = s.x16.outputCache := by
  rcases hu with rfl | rfl
  · rfl
  · obtain ⟨a, m, o, hx⟩ := prelude_configures i s
    rw [hx]; rfl

end

theorem mergesOutput_iff (i : Instr) :
    mergesOutput i = true ↔ (∃ mask val, i = .x16Wr mask val) ∨ ∃ pin value, i = .x16WrPin pin value := by
  cases i <;> simp [mergesOutput]

theorem readsPins_iff (i : Instr) : readsPins i = true ↔ i = .x8Rd ∨ ∃ pin, i = .x8RdPin pin := by
  cases i <;> simp [readsPins]

theorem BusWrites.outputCache {i : Instr} {s t : State} (h : BusWrites i s t) (hi : mergesOutput i = false) :
    t.x16.outputCache = s.x16.outputCache ∧ t.draws = s.draws := by
  have hx : t.x16 = s.x16 := h.x16.resolve_right fun hmerge => by simp [hi] at hmerge
  exact ⟨by rw [hx], h.draws.resolve_right (by simp [hi])⟩

theorem BusWrites.portCache {i : Instr} {s t : State} (h : BusWrites i s t) : t.x8.portCache = s.x8.portCache := by
  rcases h.x8 with hx | ⟨-, x, hx⟩ <;> rw [hx]

theorem BusWrites.pinCache {i : Instr} {s t : State} (h : BusWrites i s t) (hi : readsPins i = false) :
    t.x8.pinCache = s.x8.pinCache := by
  rw [h.x8.resolve_right fun hread => by simp [hi] at hread]

/-- Settles O50: the prelude writes the masks and `portCache`, the transactions `outputCache` and `pinCache`. -/
theorem commandsWriteOnlyTheirRegisters : Obligations.CommandsWriteOnlyTheirRegisters := by
  intro i s t h
  obtain ⟨u, hu, hbus⟩ : ∃ u, (u = s ∨ u = prelude i s) ∧ BusWrites i u t :=
    (exec_writes h).elim (fun hbus => ⟨s, .inl rfl, hbus⟩) (fun hbus => ⟨_, .inr rfl, hbus⟩)
  refine ⟨fun hcfg => ?_, fun hwr hwrPin => ?_, fun hwr hwrPin htgl hcleanup => ?_, fun hrd hrdPin => ?_,
    (keepsOther_exec h).variant, ?_, ?_⟩
  · obtain ⟨v, hx⟩ := hbus.masks
    rw [hx, base_x16 hu hcfg]
    exact ⟨rfl, rfl, rfl, rfl⟩
  · have hmerge : mergesOutput i = false := by
      rw [← Bool.not_eq_true, mergesOutput_iff]
      rintro (⟨mask, val, hi⟩ | ⟨pin, value, hi⟩)
      · exact hwr mask val hi
      · exact hwrPin pin value hi
    obtain ⟨hcache, hdraws⟩ := hbus.outputCache hmerge
    refine ⟨hcache.trans (base_outputCache hu), hdraws.trans ?_⟩
    rcases hu with rfl | rfl <;> simp
  · rw [hbus.portCache]
    rcases hu with rfl | rfl
    · rfl
    · exact prelude_portCache s hwr hwrPin htgl hcleanup
  · have hread : readsPins i = false := by
      rw [← Bool.not_eq_true, readsPins_iff]
      rintro (hi | ⟨pin, hi⟩)
      · exact hrd hi
      · exact hrdPin pin hi
    rw [hbus.pinCache hread]
    rcases hu with rfl | rfl <;> simp
  · rw [hbus.rst]
    rcases hu with rfl | rfl <;> simp
  · rw [hbus.cmd]
    rcases hu with rfl | rfl <;> simp

/-! ### The first request -/

/-- A command without a transaction commits at once: a response, and nothing on the bus. -/
theorem planOf_commit_ends (i : Instr) (b : Busy) (s : State) (bytes : List Byte) (t : State) :
    ((planOf i b s).commit bytes t).response.isSome = true ∧ ((planOf i b s).commit bytes t).trace = t.trace := by
  rcases planOf_commit i b s bytes t with ⟨d, h⟩ | ⟨-, x, d, h⟩ | ⟨-, mask, val, h⟩ <;> rw [h] <;> exact ⟨rfl, rfl⟩

/-- The request outstanding in `BUSY` is the one that the index names in the script (R36, R51). -/
theorem outstanding_of_busy {s : State} {b : Busy} {i : Instr} (hp : s.phase = .busy b) (hdec : decode s.variant b.word = .ok i) :
    s.outstanding = (planOf i b s).script[b.index]? := by
  simp [State.outstanding, hp, hdec]

/-- Without a completion at hand a command's transactions commit an empty script at once, or issue its head and wait. -/
theorem launch_without_completion {i : Instr} {b : Busy} {s : State} (hdec : decode s.variant b.word = .ok i)
    (hindex : b.index = 0) (ha : s.answers = []) :
    ((launch (planOf i b s) b s).phase = .idle ∧ (launch (planOf i b s) b s).response.isSome = true ∧
      (launch (planOf i b s) b s).trace = s.trace) ∨
    ∃ r, (launch (planOf i b s) b s).phase = .busy b ∧ (launch (planOf i b s) b s).response = s.response ∧
      (launch (planOf i b s) b s).trace = s.trace ++ [r] ∧ (launch (planOf i b s) b s).outstanding = some r := by
  cases hscript : (planOf i b s).script with
  | nil =>
    rw [launch_nil _ _ _ hscript]
    exact .inl ⟨planOf_commit_phase i b s _ s, planOf_commit_ends i b s _ s⟩
  | cons r rest =>
    rw [launch_cons _ _ _ hscript, pump_wait _ r rest b _ (by simp [ha])]
    refine .inr ⟨r, rfl, rfl, rfl, ?_⟩
    have houtstanding := outstanding_of_busy (s := ((s.issue r).setPhase (.busy b)).setAnswers []) rfl hdec
    have hplan : planOf i b (((s.issue r).setPhase (.busy b)).setAnswers []) = planOf i b s := planOf_congr i rfl rfl rfl
    rw [hplan, hscript, hindex] at houtstanding
    exact houtstanding

/-- Settles O40: past its check and its prelude a command is as `launch_without_completion` says. -/
theorem firstRequestIsAwaited : Obligations.FirstRequestIsAwaited := by
  intro i s hs ha
  refine ⟨_, exec_ready i s hs, ?_⟩
  split
  · have hdec : decode (prelude i (s.begin (encode i))).variant (startCtx i s).word = .ok i := by
      simp [hs.2, decode_encode]
    rcases launch_without_completion hdec (startCtx_index i s) (by simp [ha]) with
      ⟨hphase, hresponse, htrace⟩ | ⟨r, hphase, hresponse, htrace, houtstanding⟩
    · exact .inl ⟨hphase, hresponse, by simpa using htrace⟩
    · exact .inr ⟨r, startCtx i s, hphase, startCtx_word i s, startCtx_index i s, startCtx_bytes i s,
        by simpa using hresponse, by simpa using htrace, houtstanding⟩
  · exact .inl ⟨rfl, rfl, rfl⟩

/-! ### Reset -/

/-- Settles O13: `State.resetOf` lists the reset values. -/
theorem resetStateHoldsTheResetValues : Obligations.ResetStateHoldsTheResetValues :=
  ⟨fun _ => ⟨rfl, rfl, rfl, rfl, rfl, rfl, rfl, rfl, rfl, rfl⟩, rfl⟩

theorem inv_resetOf (v : Variant) : (State.resetOf v).inv = true := by
  cases v <;> decide

/-- Settles O49: the reset values meet R29, `IDLE` is well formed, and both variants' registers are at their reset values. -/
theorem invariantHoldsAtReset : Obligations.InvariantHoldsAtReset :=
  ⟨inv_resetOf .x16, inv_resetOf .x8, inv_resetOf .x16⟩

end Sys2Proof.Machine
end

section
/-! PROOFS. Family `20_memory.md`: the bus port (R51 to R62). A plan's requests are ones the variant may issue, and the handshakes issue
requests of the plan alone; and handshakes that have waited go on where they stopped, so that completions may come in batches. -/

namespace Sys2Proof.Machine

/-! ### The scripts hold requests that the variant may issue -/

theorem allowed_writePair {reg : Byte} (h : reg ∈ pairAddresses) (v : Mask16) :
    (writePair reg v).allowed .x16 = true := by
  simpa [writePair, Request.allowed] using h

theorem cfgScript_allowed (direction : Mask16) (a : Accs) : ∀ r ∈ cfgScript direction a, r.allowed .x16 = true := by
  intro r hr
  simp only [cfgScript, List.mem_cons, List.not_mem_nil, or_false] at hr
  rcases hr with rfl | rfl | rfl | rfl | rfl <;> exact allowed_writePair (by decide) _

theorem readPort_allowed {reg : Byte} (h : reg = portA ∨ reg = portB) : ∀ r ∈ readPort reg, r.allowed .x16 = true := by
  simpa [readPort, Request.allowed] using h

theorem portOf_eq_portA_or_portB (pin : BitVec 4) : portOf pin = portA ∨ portOf pin = portB := by
  unfold portOf
  split
  · exact .inr rfl
  · exact .inl rfl

/-- A script that a mask half of zero leaves out is allowed if it is allowed when it is there. -/
theorem halfScript_allowed (half : Byte) {v : Variant} {rs : List Request} (h : ∀ r ∈ rs, r.allowed v = true) :
    ∀ r ∈ (if half = 0 then [] else rs), r.allowed v = true := by
  split
  · simp
  · exact h

theorem rdScript_allowed (mask : Mask16) : ∀ r ∈ rdScript mask, r.allowed .x16 = true :=
  List.forall_mem_append.mpr
    ⟨halfScript_allowed _ (readPort_allowed (.inl rfl)), halfScript_allowed _ (readPort_allowed (.inr rfl))⟩

theorem wrScript_allowed (m new : Mask16) (r : X16Regs) : ∀ q ∈ wrScript m new r, q.allowed .x16 = true :=
  List.forall_mem_append.mpr
    ⟨halfScript_allowed _ (by simp [Request.allowed]), halfScript_allowed _ (by simp [Request.allowed])⟩

theorem planSendPort_allowed (v : Byte) : ∀ r ∈ (planSendPort v).script, r.allowed .x8 = true := by
  simp [planSendPort, Request.allowed]

theorem planReadPort_allowed (data : Byte → Mask16) : ∀ r ∈ (planReadPort data).script, r.allowed .x8 = true := by
  simp [planReadPort, Request.allowed]

theorem planOf_script_allowed (i : Instr) (b : Busy) (s : State) :
    ∀ r ∈ (planOf i b s).script, r.allowed i.variant = true := by
  cases i
  case x16Cfg flags apply =>
    cases apply with
    | false => exact fun _ hr => absurd hr List.not_mem_nil
    | true => exact cfgScript_allowed s.x16.directionMask b.accs
  case x16Rd mask => exact rdScript_allowed mask
  case x16RdPin pin => exact readPort_allowed (portOf_eq_portA_or_portB pin)
  case x16Wr mask val => exact wrScript_allowed _ _ _
  case x16WrPin pin value => exact wrScript_allowed _ _ _
  case x8Wr val => exact planSendPort_allowed _
  case x8WrPin pin value => exact planSendPort_allowed _
  case x8Tgl pin => exact planSendPort_allowed _
  case x8Rd => exact planReadPort_allowed _
  case x8RdPin pin => exact planReadPort_allowed _
  case x8Cleanup => exact planSendPort_allowed _

/-! ### What a step appends to the history -/

/-- From `s` to `t` the history grows by requests that the variant `v` may issue, if at all. -/
def IssuesAllowed (v : Variant) (s t : State) : Prop :=
  ∃ issued, t.trace = s.trace ++ issued ∧ ∀ r ∈ issued, r.allowed v = true

theorem IssuesAllowed.of_trace_eq {v : Variant} {s t : State} (h : t.trace = s.trace) : IssuesAllowed v s t :=
  ⟨[], by simp [h], by simp⟩

theorem IssuesAllowed.of_issue {v : Variant} (s : State) {r : Request} (h : r.allowed v = true) : IssuesAllowed v s (s.issue r) :=
  ⟨[r], rfl, List.forall_mem_singleton.mpr h⟩

theorem IssuesAllowed.trans {v : Variant} {s t u : State} (hst : IssuesAllowed v s t) (htu : IssuesAllowed v t u) :
    IssuesAllowed v s u := by
  obtain ⟨issued, htrace, hallowed⟩ := hst
  obtain ⟨issued', htrace', hallowed'⟩ := htu
  exact ⟨issued ++ issued', by rw [htrace', htrace, List.append_assoc], List.forall_mem_append.mpr ⟨hallowed, hallowed'⟩⟩

theorem planOf_fail_trace (i : Instr) (b : Busy) (s : State) (e : BusErr) (t : State) :
    ((planOf i b s).fail e t).trace = t.trace := by
  rcases planOf_fail i b s e t with h | ⟨-, mask, val, h⟩ <;> rw [h] <;> rfl

theorem pump_issuesAllowed (i : Instr) (c : Busy) (u : State) {rs : List Request} (b : Busy) (s : State)
    (hrs : ∀ r ∈ rs, r ∈ (planOf i c u).script) : IssuesAllowed i.variant s (pump (planOf i c u) rs b s) := by
  cases rs with
  | nil => exact .of_trace_eq rfl
  | cons r rest =>
    exact pump_rule (P := IssuesAllowed i.variant s) (planOf i c u) (planOf i c u).script
      (fun t q hq ht => ht.trans (.of_issue t (planOf_script_allowed i c u q hq)))
      (fun _ _ ht => ht.trans (.of_trace_eq rfl)) (fun _ _ ht => ht.trans (.of_trace_eq rfl))
      (fun t bytes ht => ht.trans (.of_trace_eq (planOf_commit_ends i c u bytes t).2))
      (fun t e ht => ht.trans (.of_trace_eq (planOf_fail_trace i c u e t)))
      (r :: rest) b s (by simp) hrs (.of_trace_eq rfl)

theorem launch_issuesAllowed (i : Instr) (c : Busy) (u : State) (b : Busy) (s : State) :
    IssuesAllowed i.variant s (launch (planOf i c u) b s) := by
  cases hscript : (planOf i c u).script with
  | nil =>
    rw [launch_nil _ b s hscript]
    exact .of_trace_eq (planOf_commit_ends i c u _ s).2
  | cons r rest =>
    rw [launch_cons _ b s hscript]
    have hfirst := IssuesAllowed.of_issue s (planOf_script_allowed i c u r (by simp [hscript]))
    exact hfirst.trans (pump_issuesAllowed i c u b _ fun _ hq => hscript ▸ hq)

theorem resume_issuesAllowed (b : Busy) (s : State) : IssuesAllowed s.variant s (resume b s) := by
  unfold resume
  split
  · rename_i i hdec
    rw [← variant_of_decode hdec]
    exact pump_issuesAllowed i b s b s fun _ hr => List.mem_of_mem_drop hr
  · exact .of_trace_eq rfl

theorem exec_issuesAllowed {i : Instr} {s t : State} (h : exec i s = .next t) : IssuesAllowed i.variant s t := by
  rcases exec_cases h with ⟨-, rfl⟩ | ⟨-, r, rfl⟩ | ⟨-, rfl⟩
  · exact .of_trace_eq rfl
  · exact .of_trace_eq rfl
  · obtain ⟨issued, htrace, hallowed⟩ := launch_issuesAllowed i (startCtx i s) (prelude i (s.begin (encode i))) (startCtx i s)
      (prelude i (s.begin (encode i)))
    exact ⟨issued, by simpa [launched] using htrace, hallowed⟩

/-- Settles O45: a step issues requests only through the handshakes of a command that the decoder reads for the controller's variant. -/
theorem onlyAllowedRequestsAreIssued : Obligations.OnlyAllowedRequestsAreIssued := by
  intro s t h
  have hissued : IssuesAllowed s.variant s t := by
    rcases step_cases h with ⟨-, rfl⟩ | ⟨-, b, -, rfl⟩ | ⟨-, -, -, rfl⟩ | ⟨-, -, w, i, -, hdec, hexec⟩ | ⟨-, -, w, e, -, -, rfl⟩
    · exact .of_trace_eq rfl
    · exact resume_issuesAllowed b s
    · exact .of_trace_eq rfl
    · exact variant_of_decode hdec ▸ exec_issuesAllowed (s := s.takeCmd) hexec
    · exact .of_trace_eq rfl
  exact hissued

/-! ### Handshakes with more draws at hand -/

/-- The state with more draws after the ones it holds. -/
def State.withMore (s : State) (later : List Answer) : State := s.setAnswers (s.answers ++ later)

@[simp] theorem State.withMore_answers (s : State) (later : List Answer) :
    (s.withMore later).answers = s.answers ++ later := rfl

theorem planOf_commit_withMore (i : Instr) (c : Busy) (u : State) (bytes : List Byte) (s : State) (later : List Answer) :
    (planOf i c u).commit bytes (s.withMore later) = ((planOf i c u).commit bytes s).withMore later := by
  cases i <;> rfl

theorem planOf_fail_withMore (i : Instr) (c : Busy) (u : State) (e : BusErr) (s : State) (later : List Answer) :
    (planOf i c u).fail e (s.withMore later) = ((planOf i c u).fail e s).withMore later := by
  cases i <;> rfl

theorem planOf_commit_setPhase (i : Instr) (c : Busy) (u : State) (bytes : List Byte) (s : State) (p : Phase) :
    (planOf i c u).commit bytes (s.setPhase p) = (planOf i c u).commit bytes s := by
  cases i <;> rfl

theorem planOf_fail_setPhase (i : Instr) (c : Busy) (u : State) (e : BusErr) (s : State) (p : Phase) :
    (planOf i c u).fail e (s.setPhase p) = (planOf i c u).fail e s := by
  cases i <;> rfl

/-- Of the phase and of the draws the handshakes see only the next completion and the draws after it. -/
theorem pump_setPhase_setAnswers (i : Instr) (c : Busy) (u : State) (p : Phase) :
    ∀ (rs : List Request) (b : Busy) (s : State) (as : List Answer), rs ≠ [] → nextAnswer as = nextAnswer s.answers →
      pump (planOf i c u) rs b ((s.setPhase p).setAnswers as) = pump (planOf i c u) rs b s
  | [], _, _, _, h, _ => absurd rfl h
  | r :: rest, b, s, as, _, hnext => by
    cases hn : nextAnswer s.answers with
    | none =>
      rw [pump_wait _ r rest b s hn, pump_wait _ r rest b _ (hnext.trans hn)]
      rfl
    | some completion =>
      obtain ⟨answer, left⟩ := completion
      cases answer with
      | error e =>
        rw [pump_err _ r rest b s hn, pump_err _ r rest b _ (hnext.trans hn)]
        exact planOf_fail_setPhase i c u e (s.setAnswers left) p
      | ok x =>
        cases rest with
        | nil =>
          rw [pump_last _ r b s hn, pump_last _ r b _ (hnext.trans hn)]
          exact planOf_commit_setPhase i c u _ (s.setAnswers left) p
        | cons r' rest =>
          rw [pump_more _ r r' rest b s hn, pump_more _ r r' rest b _ (hnext.trans hn)]
          exact pump_setPhase_setAnswers i c u p (r' :: rest) _ ((s.setAnswers left).issue r') left (by simp) rfl

/-- Transactions started with context `b` in state `s` lead to `t` with the draws of `s`, and to `t'` with `later` after them: either they end
in `t`, and `t'` has `later` left; or they wait in `t`, and `t'` is where the plan goes on from `t` with `later`. -/
inductive InBatches (p : Plan) (b : Busy) (s : State) (later : List Answer) : State → State → Prop where
  | ends {t : State} (ht : t.phase = .idle) : InBatches p b s later t (t.withMore later)
  | goesOn {c : Busy} {v : State} (hv : SameOffBus s v) (hword : c.word = b.word) (haccs : c.accs = b.accs) :
      InBatches p b s later (v.setPhase (.busy c)) (continuePlan p c ((v.setPhase (.busy c)).setAnswers later))

theorem SameOffBus.rst {s u : State} (h : SameOffBus s u) : u.rst = s.rst := by obtain ⟨_, _, rfl⟩ := h; rfl

theorem InBatches.of_sameOffBus {p : Plan} {b b' : Busy} {s s' t t' : State} {later : List Answer} (hs : SameOffBus s s')
    (hword : b'.word = b.word) (haccs : b'.accs = b.accs) (h : InBatches p b' s' later t t') : InBatches p b s later t t' := by
  cases h with
  | ends ht => exact .ends ht
  | goesOn hv hw ha => exact .goesOn (hs.trans hv) (hw.trans hword) (ha.trans haccs)

theorem pump_inBatches (i : Instr) (c : Busy) (u : State) (later : List Answer) :
    ∀ (rs : List Request) (b : Busy) (s : State), rs ≠ [] → (planOf i c u).script.drop b.index = rs →
      InBatches (planOf i c u) b s later (pump (planOf i c u) rs b s) (pump (planOf i c u) rs b (s.withMore later))
  | [], _, _, h, _ => absurd rfl h
  | r :: rest, b, s, _, hscript => by
    cases hn : nextAnswer s.answers with
    | none =>
      have hlater : nextAnswer later = nextAnswer (s.withMore later).answers := (nextAnswer_append_of_none hn).symm
      rw [pump_wait _ r rest b s hn,
        ← pump_setPhase_setAnswers i c u (.busy b) (r :: rest) b (s.withMore later) later (by simp) hlater, ← hscript]
      exact .goesOn (sameOffBus_setAnswers s []) rfl rfl
    | some completion =>
      obtain ⟨answer, left⟩ := completion
      have hmore : nextAnswer (s.withMore later).answers = some (answer, left ++ later) := nextAnswer_append_of_some hn
      cases answer with
      | error e =>
        have hfail := planOf_fail_withMore i c u e (s.setAnswers left) later
        rw [pump_err _ r rest b s hn, pump_err _ r rest b _ hmore]
        exact hfail ▸ .ends (planOf_fail_phase i c u e _)
      | ok x =>
        cases rest with
        | nil =>
          have hcommit := planOf_commit_withMore i c u (b.advance r x).bytes (s.setAnswers left) later
          rw [pump_last _ r b s hn, pump_last _ r b _ hmore]
          exact hcommit ▸ .ends (planOf_commit_phase i c u _ _)
        | cons r' rest =>
          have hrest : (planOf i c u).script.drop (b.advance r x).index = r' :: rest := by
            rw [Busy.advance_index, ← List.tail_drop, hscript, List.tail_cons]
          rw [pump_more _ r r' rest b s hn, pump_more _ r r' rest b _ hmore]
          have hgoesOn := pump_inBatches i c u later (r' :: rest) (b.advance r x) ((s.setAnswers left).issue r') (by simp) hrest
          exact .of_sameOffBus (b' := b.advance r x) ((sameOffBus_setAnswers s left).trans (sameOffBus_issue _ r')) rfl rfl hgoesOn

theorem launch_inBatches (i : Instr) (c : Busy) (u : State) (later : List Answer) {b : Busy} (s : State) (hindex : b.index = 0) :
    InBatches (planOf i c u) b s later (launch (planOf i c u) b s) (launch (planOf i c u) b (s.withMore later)) := by
  cases hscript : (planOf i c u).script with
  | nil =>
    rw [launch_nil _ b s hscript, launch_nil _ b _ hscript, planOf_commit_withMore]
    exact .ends (planOf_commit_phase i c u _ s)
  | cons r rest =>
    rw [launch_cons _ b s hscript, launch_cons _ b _ hscript]
    exact (pump_inBatches i c u later (r :: rest) b (s.issue r) (by simp) (by simp [hindex, hscript])).of_sameOffBus
      (sameOffBus_issue s r) rfl rfl

/-! ### Steps with more draws at hand -/

/-- `o`, the outcome of a step with `later` at hand too, is what the step's result `t` without `later` makes of them: they are left
over when the command has ended in `t`, and else the next step goes on with them. -/
structure TakesLater (later : List Answer) (t : State) (o : Host.Outcome State Fault Refusal) : Prop where
  ended : t.phase = .idle → o = .next (t.withMore later)
  waits : t.phase ≠ .idle → o = step (t.setAnswers later)

theorem TakesLater.of_idle {later : List Answer} {t : State} (h : t.phase = .idle) :
    TakesLater later t (.next (t.withMore later)) :=
  ⟨fun _ => rfl, fun hbusy => absurd h hbusy⟩

/-- In `BUSY` the plan is computed again from the word, the accumulators and the registers alone. -/
theorem resume_eq_continuePlan {i : Instr} {b c : Busy} {s v : State} (hdec : decode s.variant b.word = .ok i)
    (hvariant : v.variant = s.variant) (hword : c.word = b.word) (haccs : c.accs = b.accs) (h16 : v.x16 = s.x16)
    (h8 : v.x8 = s.x8) : resume c v = continuePlan (planOf i b s) c v := by
  have hplan : planOf i c v = planOf i b s := planOf_congr i haccs h16 (congrArg X8Regs.portCache h8)
  simp [resume, hvariant, hword, hdec, hplan]

theorem InBatches.takesLater {i : Instr} {b : Busy} {s t t' : State} {later : List Answer}
    (h : InBatches (planOf i b s) b s later t t') (hr : s.rst = false) (hdec : decode s.variant b.word = .ok i) :
    TakesLater later t (.next t') := by
  cases h with
  | ends ht => exact .of_idle ht
  | @goesOn c v hv hword haccs =>
    refine ⟨fun hidle => by simp at hidle, fun _ => ?_⟩
    rw [step_of_busy (s := (v.setPhase (.busy c)).setAnswers later) (hv.rst.trans hr) rfl,
      resume_eq_continuePlan (v := (v.setPhase (.busy c)).setAnswers later) hdec hv.variant hword haccs hv.x16 hv.x8]

theorem resume_takesLater {s : State} {b : Busy} (later : List Answer) (hr : s.rst = false) (hp : s.phase = .busy b)
    (hs : s.busyWf = true) : TakesLater later (resume b s) (.next (resume b (s.withMore later))) := by
  cases hdec : decode s.variant b.word with
  | error e => simp [State.busyWf, hp, hdec] at hs
  | ok i =>
    obtain ⟨-, hindex, -⟩ := (busyWf_iff_of_busy hp hdec).mp hs
    rw [resume_eq_continuePlan hdec rfl rfl rfl rfl rfl, resume_eq_continuePlan (v := s.withMore later) hdec rfl rfl rfl rfl rfl]
    have hleft : (planOf i b s).script.drop b.index ≠ [] := by simpa using hindex
    exact (pump_inBatches i b s later _ b s hleft rfl).takesLater hr hdec

theorem startCtx_withMore (i : Instr) (s : State) (later : List Answer) : startCtx i (s.withMore later) = startCtx i s := by
  cases i <;> rfl

theorem passesCheck_withMore (i : Instr) (s : State) (later : List Answer) :
    passesCheck i (s.withMore later) = passesCheck i s := by
  cases i <;> rfl

theorem prelude_withMore (i : Instr) (s : State) (later : List Answer) :
    prelude i (s.withMore later) = (prelude i s).withMore later := by
  cases i <;> rfl

theorem begin_withMore (s : State) (w : Word) (later : List Answer) :
    (s.withMore later).begin w = (s.begin w).withMore later := rfl

theorem launched_takesLater {i : Instr} {s : State} (later : List Answer) (hr : s.rst = false) (hs : s.readyFor i.variant) :
    TakesLater later (launched i s) (.next (launched i (s.withMore later))) := by
  have hdec : decode (prelude i (s.begin (encode i))).variant (startCtx i s).word = .ok i := by
    simp [hs.2, decode_encode]
  have hbatches := launch_inBatches i (startCtx i s) (prelude i (s.begin (encode i))) later (b := startCtx i s)
    (prelude i (s.begin (encode i))) (startCtx_index i s)
  have hplan : planOf i (startCtx i s) ((prelude i (s.begin (encode i))).withMore later)
      = planOf i (startCtx i s) (prelude i (s.begin (encode i))) := planOf_congr i rfl rfl rfl
  rw [launched, launched, startCtx_withMore, begin_withMore, prelude_withMore, hplan]
  exact hbatches.takesLater (by simpa using hr) hdec

theorem exec_takesLater {i : Instr} {s t : State} (later : List Answer) (hr : s.rst = false) (hs : s.readyFor i.variant)
    (h : exec i s = .next t) : TakesLater later t (exec i (s.withMore later)) := by
  rw [exec_ready i s hs] at h
  injection h with h
  rw [exec_ready i (s.withMore later) hs, passesCheck_withMore]
  subst h
  split
  · exact launched_takesLater later hr hs
  · exact .of_idle (t := raiseDir (s.begin (encode i))) rfl

theorem step_takesLater {s t : State} (later : List Answer) (hr : s.rst = false) (hs : s.busyWf = true)
    (hcmd : s.phase = .idle → s.cmd.isSome = true) (h : step s = .next t) : TakesLater later t (step (s.withMore later)) := by
  rcases step_cases h with ⟨hreset, -⟩ | ⟨-, b, hp, rfl⟩ | ⟨-, hp, hc, -⟩ | ⟨-, hp, w, i, hc, hdec, hexec⟩ |
    ⟨-, hp, w, e, hc, hdec, rfl⟩
  · simp [hr] at hreset
  · rw [step_of_busy (s := s.withMore later) hr hp]
    exact resume_takesLater later hr hp hs
  · exact absurd (hcmd hp) (by simp [hc])
  · rw [step_of_decoded (s := s.withMore later) hr hp hc hdec]
    exact exec_takesLater (s := s.takeCmd) later hr ⟨hp, (variant_of_decode hdec).symm⟩ hexec
  · rw [step_of_illegal (s := s.withMore later) hr hp hc hdec]
    exact .of_idle (t := acceptIllegal w s.takeCmd) rfl

/-- Settles O44: a command that has waited goes on with the plan and the index with which it waits (`InBatches`), whether the completions come
in this step or in the next. -/
theorem completionsInBatchesAreCompletionsAtOnce : Obligations.CompletionsInBatchesAreCompletionsAtOnce := by
  intro s t as later hr hs hcmd h
  have htakes := step_takesLater (s := s.setAnswers as) later hr hs hcmd h
  exact ⟨htakes.ended, htakes.waits⟩

end Sys2Proof.Machine
end

section
/-! PROOFS. Family `30_encoding.md`: the decoder against the encoder and the opcode table (R70 to R85), the responses (R80), and the
assembler's mappings (R84). A decoded word is taken by one row of the table; the row's mask fixes the bits that the row does not read
(`eq_of_takes_of_read_eq`), so the word is the one that the command read from it encodes to. -/

namespace Sys2Proof.Machine

/-! ### The decoder accepts the words that a row of the variant takes -/

/-- Settles O1: the row that takes a command's word reads the command back. -/
theorem decodeOfEncodeIsTheCommand : Obligations.DecodeOfEncodeIsTheCommand := decode_encode

/-- `decode_of_takes` has this converse: a decoded word was taken by a row of the variant and read by it. -/
theorem exists_row_of_decode {v : Variant} {w : Word} {i : Instr} (h : decode v w = .ok i) :
    ∃ r ∈ rowsOf v, r.takes w = true ∧ r.read w = i := by
  unfold decode at h
  split at h
  · split at h
    · rename_i r hfind
      exact ⟨r, List.mem_of_find?_eq_some hfind, by simpa using List.find?_some hfind, by simpa using h⟩
    · split at h <;> simp at h
  · simp at h

theorem mnemonic_read_of_mem_rows {r : Row} (h : r ∈ rows) (w : Word) : (r.read w).mnemonic = r.mnemonic := by
  simp only [rows, List.mem_cons, List.not_mem_nil, or_false] at h
  rcases h with rfl | rfl | rfl | rfl | rfl | rfl | rfl | rfl | rfl | rfl | rfl <;> rfl

/-- Rows have different mnemonics (R72). -/
theorem rows_mnemonics_nodup : (rows.map Row.mnemonic).Nodup := by
  decide

/-- Settles O3: the decoder accepts exactly the words that a row of the variant takes, and no two rows of a variant take the same word. -/
theorem wordDecodesIffExactlyOneRowTakesIt : Obligations.WordDecodesIffExactlyOneRowTakesIt := by
  intro v w
  constructor
  · rintro ⟨i, hdec⟩
    obtain ⟨r, hr, htakes, -⟩ := exists_row_of_decode hdec
    refine ⟨r.mnemonic, ⟨r, hr, htakes, rfl⟩, ?_⟩
    rintro m ⟨r', hr', htakes', rfl⟩
    rw [row_unique_of_takes hr' hr htakes' htakes]
  · rintro ⟨m, ⟨r, hr, htakes, -⟩, -⟩
    exact ⟨r.read w, decode_of_takes hr htakes⟩

/-! ### The bits of a word that a row does not fix are in the operands it reads -/

/-- Words with an equal field agree on the bits of the field. -/
theorem getLsbD_eq_of_field_eq {w w' : Word} {start len : Nat} (h : w.extractLsb' start len = w'.extractLsb' start len) {k : Nat}
    (hstart : start ≤ k) (hend : k < start + len) : w.getLsbD k = w'.getLsbD k := by
  have hbit := congrArg (fun x : BitVec len => x.getLsbD (k - start)) h
  have hlen : k - start < len := by omega
  simpa [BitVec.getLsbD_extractLsb', hlen, Nat.add_sub_cancel' hstart] using hbit

theorem getLsbD_eq_of_lowField_eq {w w' : Word} {len : Nat} (h : w.extractLsb' 0 len = w'.extractLsb' 0 len) {k : Nat}
    (hk : k < len) : w.getLsbD k = w'.getLsbD k :=
  getLsbD_eq_of_field_eq h k.zero_le (by omega)

/-- A row reads every bit that its mask leaves open: words from which it reads the same command agree on those bits (R81). -/
theorem getLsbD_eq_of_read_eq {r : Row} (hr : r ∈ rows) {w w' : Word} (hread : r.read w = r.read w') {k : Nat} (hk : k < 128)
    (hopen : r.mask.getLsbD k = false) : w.getLsbD k = w'.getLsbD k := by
  simp only [rows, List.mem_cons, List.not_mem_nil, or_false] at hr
  rcases hr with rfl | rfl | rfl | rfl | rfl | rfl | rfl | rfl | rfl | rfl | rfl
  · obtain ⟨hflags, happly⟩ := Instr.x16Cfg.inj hread
    have hfields : ∀ k < 128, rows[0].mask.getLsbD k = false → k < 96 ∨ k = 96 := by decide
    rcases hfields k hk hopen with hlow | rfl
    · exact getLsbD_eq_of_lowField_eq hflags hlow
    · exact happly
  · have hfield : ∀ k < 128, rows[1].mask.getLsbD k = false → k < 16 := by decide
    exact getLsbD_eq_of_lowField_eq (Instr.x16Rd.inj hread) (hfield k hk hopen)
  · have hfield : ∀ k < 128, rows[2].mask.getLsbD k = false → k < 4 := by decide
    exact getLsbD_eq_of_lowField_eq (Instr.x16RdPin.inj hread) (hfield k hk hopen)
  · obtain ⟨hmask, hval⟩ := Instr.x16Wr.inj hread
    have hfields : ∀ k < 128, rows[3].mask.getLsbD k = false → k < 16 ∨ 16 ≤ k ∧ k < 16 + 16 := by decide
    rcases hfields k hk hopen with hlow | ⟨hstart, hend⟩
    · exact getLsbD_eq_of_lowField_eq hval hlow
    · exact getLsbD_eq_of_field_eq hmask hstart hend
  · obtain ⟨hpin, hvalue⟩ := Instr.x16WrPin.inj hread
    have hfields : ∀ k < 128, rows[4].mask.getLsbD k = false → k < 4 ∨ k = 8 := by decide
    rcases hfields k hk hopen with hlow | rfl
    · exact getLsbD_eq_of_lowField_eq hpin hlow
    · exact hvalue
  · have hfield : ∀ k < 128, rows[5].mask.getLsbD k = false → k < 8 := by decide
    exact getLsbD_eq_of_lowField_eq (Instr.x8Wr.inj hread) (hfield k hk hopen)
  · obtain ⟨hpin, hvalue⟩ := Instr.x8WrPin.inj hread
    have hfields : ∀ k < 128, rows[6].mask.getLsbD k = false → k < 3 ∨ k = 8 := by decide
    rcases hfields k hk hopen with hlow | rfl
    · exact getLsbD_eq_of_lowField_eq hpin hlow
    · exact hvalue
  · have hfield : ∀ k < 128, rows[7].mask.getLsbD k = false → k < 3 := by decide
    exact getLsbD_eq_of_lowField_eq (Instr.x8Tgl.inj hread) (hfield k hk hopen)
  · have hfixed : ∀ k < 128, rows[8].mask.getLsbD k ≠ false := by decide
    exact absurd hopen (hfixed k hk)
  · have hfield : ∀ k < 128, rows[9].mask.getLsbD k = false → k < 3 := by decide
    exact getLsbD_eq_of_lowField_eq (Instr.x8RdPin.inj hread) (hfield k hk hopen)
  · have hfixed : ∀ k < 128, rows[10].mask.getLsbD k ≠ false := by decide
    exact absurd hopen (hfixed k hk)

/-- The bits that a row fixes are the same in all words that it takes, so it reads each command from one word at most. -/
theorem eq_of_takes_of_read_eq {r : Row} (hr : r ∈ rows) {w w' : Word} (h : r.takes w = true) (h' : r.takes w' = true)
    (hread : r.read w = r.read w') : w = w' := by
  have hfixed : w &&& r.mask = w' &&& r.mask := ((takes_iff r w).mp h).trans ((takes_iff r w').mp h').symm
  apply BitVec.eq_of_getLsbD_eq
  intro k hk
  cases hmask : r.mask.getLsbD k with
  | false => exact getLsbD_eq_of_read_eq hr hread hk hmask
  | true => simpa [hmask] using congrArg (fun x : Word => x.getLsbD k) hfixed

/-- Settles O2: the row that takes the command's word reads the same mnemonic as the row that takes the decoded word, so it is that row, and
it reads the same command from both words. -/
theorem encodeOfDecodeIsTheWord : Obligations.EncodeOfDecodeIsTheWord := by
  intro v w i hdec
  refine ⟨variant_of_decode hdec, ?_⟩
  obtain ⟨r, hr, htakes, hread⟩ := exists_row_of_decode hdec
  obtain ⟨r', hr', htakes', hread', hmnemonic⟩ := encodesInRow i
  have hrow := (mem_rowsOf.mp hr).1
  obtain rfl : r' = r :=
    List.inj_on_of_nodup_map rows_mnemonics_nodup (mem_rowsOf.mp hr').1 hrow
      (by rw [hmnemonic, ← hread, mnemonic_read_of_mem_rows hrow])
  exact eq_of_takes_of_read_eq hrow htakes' htakes (hread'.trans hread.symm)

/-! ### Words of the spec -/

/-- Settles O5: the decoder evaluated on the eight words. -/
theorem specWordsDecode : Obligations.SpecWordsDecode := by
  unfold Obligations.SpecWordsDecode
  decide

/-! ### The flag fields of `X16.CFG` -/

/-- The low 96 bits of a command's word are its operand area (R70). -/
theorem getLsbD_encode_of_lt (i : Instr) {k : Nat} (h : k < 96) : (encode i).getLsbD k = i.operands.getLsbD k := by
  simp only [encode, commandWord, BitVec.getLsbD_append, h, if_true]

/-- The order of the flags in a pin's field (R73). -/
theorem getLsbD_field_pinFlags (flags : BitVec 96) (p : Nat) {k : Nat} (h : k < 6) :
    (pinFlags flags p).field.getLsbD k = flags.getLsbD (6 * p + k) := by
  simp only [PinFlags.field, pinFlags, BitVec.getLsbD_append]
  interval_cases k <;> simp

/-- Settles O4: the operand area of `X16.CFG` is `FLAGS`, and its bits `6p+5 : 6p` are the flags that `pinFlags` reads. -/
theorem cfgWordHoldsEachPinsFlagField : Obligations.CfgWordHoldsEachPinsFlagField := by
  intro flags apply p hp
  apply BitVec.eq_of_getLsbD_eq
  intro k hk
  have harea : (encode (.x16Cfg flags apply)).getLsbD (6 * p + k) = flags.getLsbD (6 * p + k) :=
    getLsbD_encode_of_lt _ (by omega)
  rw [BitVec.getLsbD_extractLsb', harea, getLsbD_field_pinFlags flags p hk]
  simp [hk]

/-! ### Responses -/

/-- A command that has begun and been answered before any transaction has changed the phase and the response alone. -/
theorem begin_endCommand (s : State) (w : Word) (r : Response) : (s.begin w).endCommand r = s.ended [] s.answers r := by
  simp [State.begin, State.endCommand, State.ended]

/-- Settles O8: `exec` accepts the command only to raise `ErrIllegal`. -/
theorem commandOfOtherVariantIsIllegal : Obligations.CommandOfOtherVariantIsIllegal := by
  intro i s hp hv
  rw [exec_wrongVariant i hp hv, raiseIllegal_eq, begin_endCommand]
  rfl

@[simp] theorem fieldsByStatus_done (d : Mask16) : (Response.done d).fieldsByStatus = true := rfl
@[simp] theorem fieldsByStatus_dir : Response.dir.fieldsByStatus = true := rfl
@[simp] theorem fieldsByStatus_illegal : Response.illegal.fieldsByStatus = true := rfl
@[simp] theorem fieldsByStatus_bus (e : BusErr) : (Response.bus e).fieldsByStatus = true := rfl

/-- The command in progress has ended with a response whose fields are R80's, or it waits and the response port is free. -/
def AnsweredOrWaits (t : State) : Prop :=
  (t.phase = .idle ∧ ∃ r, t.response = some r ∧ r.fieldsByStatus = true) ∨ ((∃ b, t.phase = .busy b) ∧ t.response = none)

theorem answeredOrWaits_endCommand (s : State) {r : Response} (h : r.fieldsByStatus = true) : AnsweredOrWaits (s.endCommand r) :=
  .inl ⟨rfl, r, rfl, h⟩

theorem answeredOrWaits_commit (i : Instr) (b : Busy) (s : State) (bytes : List Byte) (t : State) :
    AnsweredOrWaits ((planOf i b s).commit bytes t) := by
  rcases planOf_commit i b s bytes t with ⟨d, h⟩ | ⟨-, x, d, h⟩ | ⟨-, mask, val, h⟩ <;> rw [h] <;>
    exact answeredOrWaits_endCommand _ (fieldsByStatus_done _)

theorem answeredOrWaits_fail (i : Instr) (b : Busy) (s : State) (e : BusErr) (t : State) :
    AnsweredOrWaits ((planOf i b s).fail e t) := by
  rcases planOf_fail i b s e t with h | ⟨-, mask, val, h⟩ <;> rw [h] <;>
    exact answeredOrWaits_endCommand _ (fieldsByStatus_bus e)

theorem PumpResult.answeredOrWaits {i : Instr} {rs : List Request} {b b' : Busy} {s u t : State}
    (h : PumpResult (planOf i b u) rs b' s t) (hs : s.response = none) : AnsweredOrWaits t := by
  cases h with
  | @waits c v hv hc => exact .inr ⟨⟨c, rfl⟩, hv.response.trans hs⟩
  | commits hv => exact answeredOrWaits_commit i b u _ _
  | fails hv => exact answeredOrWaits_fail i b u _ _

theorem launched_answeredOrWaits (i : Instr) (s : State) : AnsweredOrWaits (launched i s) :=
  (launch_result (planOf i (startCtx i s) (prelude i (s.begin (encode i)))) (startCtx i s) _).answeredOrWaits (by simp)

theorem exec_cmd {i : Instr} {s t : State} (h : exec i s = .next t) : t.cmd = s.cmd := by
  rcases exec_writes h with hbus | hbus
  · exact hbus.cmd
  · exact hbus.cmd.trans (prelude_cmd i s)

theorem exec_answeredOrWaits {i : Instr} {s : State} (hs : s.readyFor i.variant) :
    ∃ t, exec i s = .next t ∧ t.cmd = s.cmd ∧ AnsweredOrWaits t := by
  have hexec := exec_ready i s hs
  refine ⟨_, hexec, exec_cmd hexec, ?_⟩
  split
  · exact launched_answeredOrWaits i s
  · exact answeredOrWaits_endCommand _ fieldsByStatus_dir

theorem step_presented_answeredOrWaits {s : State} {w : Word} (hr : s.rst = false) (hp : s.phase = .idle) (hc : s.cmd = some w) :
    ∃ t, step s = .next t ∧ t.cmd = none ∧ AnsweredOrWaits t := by
  cases hdec : decode s.variant w with
  | ok i =>
    rw [step_of_decoded hr hp hc hdec]
    exact exec_answeredOrWaits (s := s.takeCmd) ⟨hp, (variant_of_decode hdec).symm⟩
  | error e => exact ⟨_, step_of_illegal hr hp hc hdec, rfl, answeredOrWaits_endCommand _ fieldsByStatus_illegal⟩

theorem resume_cmd (b : Busy) (s : State) : (resume b s).cmd = s.cmd := by
  rcases resume_result b s with hsame | ⟨i, -, hresult⟩
  · rw [hsame]
  · exact hresult.busWrites.cmd

theorem response_of_busyWf {s : State} {b : Busy} (hp : s.phase = .busy b) (hs : s.busyWf = true) : s.response = none := by
  cases hdec : decode s.variant b.word with
  | error e => simp [State.busyWf, hp, hdec] at hs
  | ok i => exact ((busyWf_iff_of_busy hp hdec).mp hs).1

theorem resume_answeredOrWaits {s : State} {b : Busy} (hp : s.phase = .busy b) (hs : s.busyWf = true) :
    AnsweredOrWaits (resume b s) := by
  have hresponse := response_of_busyWf hp hs
  rcases resume_result b s with hsame | ⟨i, -, hresult⟩
  · rw [hsame]; exact .inr ⟨⟨b, hp⟩, hresponse⟩
  · exact hresult.answeredOrWaits hresponse

/-- Settles O41: a plan ends in `endCommand` or waits with the response port as it found it, free since the command was accepted. -/
theorem oneResponsePerAcceptedCommand : Obligations.OneResponsePerAcceptedCommand :=
  ⟨fun _ _ hr hp hc => step_presented_answeredOrWaits hr hp hc,
    fun s b hr hp hs => ⟨resume b s, step_of_busy hr hp, resume_cmd b s, resume_answeredOrWaits hp hs⟩⟩

/-! ### The assembler's mappings -/

theorem PinConfigFlag.bit_lt (f : PinConfigFlag) : f.bit < 6 := by cases f <;> decide

theorem PinConfigFlag.bit_injective : Function.Injective PinConfigFlag.bit := by
  intro f g h
  revert h
  cases f <;> cases g <;> decide

/-- The fold of `flagField`, from any start. -/
theorem getLsbD_foldl_flags (fs : List PinConfigFlag) (m : BitVec 6) (f : PinConfigFlag) :
    (fs.foldl (fun m f => m ||| BitVec.twoPow 6 f.bit) m).getLsbD f.bit = true ↔ m.getLsbD f.bit = true ∨ f ∈ fs := by
  induction fs generalizing m with
  | nil => simp
  | cons g gs ih =>
    have hbit : (BitVec.twoPow 6 g.bit).getLsbD f.bit = true ↔ f = g := by
      simp [f.bit_lt, PinConfigFlag.bit_injective.eq_iff, eq_comm]
    rw [List.foldl_cons, ih, BitVec.getLsbD_or, Bool.or_eq_true, hbit, List.mem_cons, or_assoc]

theorem getLsbD_flagField (fs : List PinConfigFlag) (f : PinConfigFlag) : (flagField fs).getLsbD f.bit = true ↔ f ∈ fs := by
  simp [flagField, getLsbD_foldl_flags]

/-- A 6-bit field put in the place of pin `q` is read at pin `p` only if `p` is `q` (R73). -/
theorem getLsbD_placed_field (x : BitVec 6) (q : Nat) {p k : Nat} (hp : p < 16) (hk : k < 6) :
    (x.zeroExtend 96 <<< (6 * q)).getLsbD (6 * p + k) = true ↔ q = p ∧ x.getLsbD k = true := by
  have hwidth : 6 * p + k < 96 := by omega
  rcases Nat.lt_trichotomy q p with hlt | rfl | hgt
  · have hout : x.getLsbD (6 * p + k - 6 * q) = false := BitVec.getLsbD_of_ge _ _ (by omega)
    simp [hout, hlt.ne]
  · simp [hwidth]
  · have hbelow : 6 * p + k < 6 * q := by omega
    simp [hbelow, hgt.ne']

/-- The fold of `asMapping`, from any start. -/
theorem getLsbD_foldl_entries (entries : List (Nat × List PinConfigFlag)) (m : BitVec 96) {p : Nat} (hp : p < 16)
    (f : PinConfigFlag) :
    (entries.foldl (fun m e => m ||| ((flagField e.2).zeroExtend 96 <<< (6 * e.1))) m).getLsbD (6 * p + f.bit) = true ↔
      m.getLsbD (6 * p + f.bit) = true ∨ ∃ e ∈ entries, e.1 = p ∧ f ∈ e.2 := by
  induction entries generalizing m with
  | nil => simp
  | cons e es ih =>
    rw [List.foldl_cons, ih, BitVec.getLsbD_or, Bool.or_eq_true, getLsbD_placed_field _ _ hp f.bit_lt, getLsbD_flagField,
      List.exists_mem_cons_iff, or_assoc]

/-- Settles O54: the check refuses a pin listed twice; a flag of a pin is set by the entries of that pin that name it, and by no other. -/
theorem assembledMappingHasTheNamedFlags : Obligations.AssembledMappingHasTheNamedFlags := by
  refine ⟨fun entries htwice => if_neg fun hok => htwice hok.2, fun entries hpins honce => ?_⟩
  have hall : entries.all (fun e => e.1 < 16) = true := by simpa using hpins
  refine ⟨_, if_pos ⟨hall, honce⟩, fun p hp f => ?_⟩
  simpa using getLsbD_foldl_entries entries 0 hp f

end Sys2Proof.Machine
end

section
/-! PROOFS. Family `40_x16_config.md`: `X16.CFG` (R100 to R112), and how many completions a command takes at most. The steps of one pin add
that pin's bit to some of seven masks (`cfgPin_eq_gather`), so the steps of a list of pins add to each mask the listed pins whose flags select it
(`cfgPins_eq_gather`); the closed form of R109 and the freedom of order of R101 are two readings of that one equation. -/

namespace Sys2Proof.Machine

/-! ### The per-pin steps gather the pins that the flags select -/

/-- An output pin of R104: `Output` without `Input`. -/
def PinFlags.drives (f : PinFlags) : Bool := f.output && !f.input

/-- The accumulators with bits added. -/
def Accs.withBits (a : Accs) (pu intEn defVal cmp : Mask16) : Accs :=
  { pu := a.pu ||| pu, intEn := a.intEn ||| intEn, defVal := a.defVal ||| defVal, cmp := a.cmp ||| cmp }

/-- What the per-pin steps make of `c` (R102 to R104) when `pins sel` are the pins whose flags pass the test `sel`. -/
def CfgFold.gather (c : CfgFold) (pins : (PinFlags → Bool) → Mask16) : CfgFold :=
  { regs := c.regs.withPins (pins PinFlags.activeLow) (pins PinFlags.input) (pins PinFlags.drives)
    accs := c.accs.withBits (pins fun f => f.input && f.pullUp) (pins fun f => f.input && (f.rising || f.falling))
      (pins fun f => f.input && (f.falling && !f.rising)) (pins fun f => f.input && (f.rising != f.falling)) }

theorem CfgFold.gather_none (c : CfgFold) : c.gather (fun _ => 0) = c := by
  simp [CfgFold.gather, X16Regs.withPins, Accs.withBits, and_allOnes16]

theorem CfgFold.gather_gather (c : CfgFold) (v w : (PinFlags → Bool) → Mask16) :
    (c.gather v).gather w = c.gather (fun sel => v sel ||| w sel) := by
  simp [CfgFold.gather, X16Regs.withPins, Accs.withBits, BitVec.or_assoc, BitVec.and_assoc, BitVec.not_or]

/-- The bit of a pin, or none. -/
def pinBit (chosen : Bool) (p : Nat) : Mask16 := if chosen then bit16 p else 0

@[simp] theorem pinBit_true (p : Nat) : pinBit true p = bit16 p := rfl
@[simp] theorem pinBit_false (p : Nat) : pinBit false p = 0 := rfl

theorem or_pinBit (m : Mask16) (chosen : Bool) (p : Nat) : (if chosen then m ||| bit16 p else m) = m ||| pinBit chosen p := by
  cases chosen <;> simp

theorem cfgActiveLow_eq (f : PinFlags) (p : Nat) (c : CfgFold) :
    cfgActiveLow f p c = { c with regs := c.regs.withPins (pinBit f.activeLow p) 0 0 } := by
  cases h : f.activeLow <;> simp [cfgActiveLow, h, X16Regs.withPins, and_allOnes16]

theorem cfgInput_eq (f : PinFlags) (p : Nat) (c : CfgFold) :
    cfgInput f p c =
      { regs := c.regs.withPins 0 (bit16 p) 0
        accs := c.accs.withBits (pinBit f.pullUp p) (pinBit (f.rising || f.falling) p) (pinBit (f.falling && !f.rising) p)
          (pinBit (f.rising != f.falling) p) } := by
  have hany : (f.rising != f.falling || f.rising && f.falling) = (f.rising || f.falling) := by
    cases f.rising <;> cases f.falling <;> rfl
  have hfalling : ((f.rising != f.falling) && f.falling) = (f.falling && !f.rising) := by
    cases f.rising <;> cases f.falling <;> rfl
  simp only [cfgInput, or_pinBit, hany, hfalling]
  simp [X16Regs.withPins, Accs.withBits, and_allOnes16]

theorem cfgOutput_eq (p : Nat) (c : CfgFold) : cfgOutput p c = { c with regs := c.regs.withPins 0 0 (bit16 p) } := by
  simp [cfgOutput, X16Regs.withPins]

/-- The steps of one pin read that pin's flags and add that pin's bit. -/
theorem cfgPin_eq_gather (flags : BitVec 96) (c : CfgFold) (p : Nat) :
    cfgPin flags c p = c.gather (fun sel => pinBit (sel (pinFlags flags p)) p) := by
  simp only [cfgPin, cfgActiveLow_eq, cfgInput_eq, cfgOutput_eq]
  cases hin : (pinFlags flags p).input
  · cases hout : (pinFlags flags p).output <;>
      simp [CfgFold.gather, X16Regs.withPins, Accs.withBits, PinFlags.drives, hin, hout, and_allOnes16]
  · simp [CfgFold.gather, X16Regs.withPins, Accs.withBits, PinFlags.drives, hin, and_allOnes16]

/-- The listed pins whose flags `sel` chooses. -/
def chosenPins (flags : BitVec 96) (pins : List Nat) (sel : PinFlags → Bool) : Mask16 :=
  pins.foldl (fun m p => if sel (pinFlags flags p) then m ||| bit16 p else m) 0

theorem getLsbD_chosenPins (flags : BitVec 96) (pins : List Nat) (sel : PinFlags → Bool) (k : Nat) :
    (chosenPins flags pins sel).getLsbD k = (decide (k < 16) && decide (k ∈ pins) && sel (pinFlags flags k)) := by
  simpa [chosenPins] using getLsbD_foldl_bits (fun p => sel (pinFlags flags p)) pins 0 k

theorem chosenPins_range (flags : BitVec 96) (sel : PinFlags → Bool) :
    chosenPins flags (List.range 16) sel = flagVector flags sel := rfl

theorem getLsbD_pinBit (chosen : Bool) (p k : Nat) :
    (pinBit chosen p).getLsbD k = (decide (k < 16) && decide (k = p) && chosen) := by
  cases chosen <;> simp [eq_comm]

theorem chosenPins_cons (flags : BitVec 96) (p : Nat) (pins : List Nat) (sel : PinFlags → Bool) :
    chosenPins flags (p :: pins) sel = pinBit (sel (pinFlags flags p)) p ||| chosenPins flags pins sel := by
  apply BitVec.eq_of_getLsbD_eq
  intro k hk
  simp only [BitVec.getLsbD_or, getLsbD_pinBit, getLsbD_chosenPins, List.mem_cons, hk, decide_true, Bool.true_and]
  by_cases hkp : k = p
  · subst hkp
    cases sel (pinFlags flags k) <;> simp
  · simp [hkp]

/-- The order of the pins does not matter to which of them are chosen. -/
theorem chosenPins_perm {pins pins' : List Nat} (flags : BitVec 96) (h : pins.Perm pins') :
    chosenPins flags pins = chosenPins flags pins' := by
  funext sel
  apply BitVec.eq_of_getLsbD_eq
  intro k _
  simp only [getLsbD_chosenPins, h.mem_iff]

theorem cfgPins_eq_gather (flags : BitVec 96) (pins : List Nat) (c : CfgFold) :
    cfgPins flags pins c = c.gather (chosenPins flags pins) := by
  induction pins generalizing c with
  | nil => exact c.gather_none.symm
  | cons p ps ih =>
    calc cfgPins flags (p :: ps) c = cfgPins flags ps (cfgPin flags c p) := rfl
      _ = (c.gather fun sel => pinBit (sel (pinFlags flags p)) p).gather (chosenPins flags ps) := by rw [ih, cfgPin_eq_gather]
      _ = c.gather (chosenPins flags (p :: ps)) := by
        rw [CfgFold.gather_gather, funext (chosenPins_cons flags p ps)]

/-- Settles O19: the pins enter the result through `chosenPins` alone. -/
theorem cfgPinOrderDoesNotMatter : Obligations.CfgPinOrderDoesNotMatter := by
  intro flags r pins hperm
  rw [cfgAll, cfgPins_eq_gather, cfgPins_eq_gather, chosenPins_perm flags hperm]

/-! ### The closed form -/

theorem getLsbD_flagVector_of_lt (flags : BitVec 96) (sel : PinFlags → Bool) {k : Nat} (hk : k < 16) :
    (flagVector flags sel).getLsbD k = sel (pinFlags flags k) := by
  simp only [getLsbD_flagVector, hk, decide_true, Bool.true_and]

/-- A flag vector is determined by its sixteen bits. -/
theorem flagVector_eq {flags : BitVec 96} {sel : PinFlags → Bool} {v : Mask16}
    (h : ∀ k < 16, v.getLsbD k = sel (pinFlags flags k)) : flagVector flags sel = v :=
  BitVec.eq_of_getLsbD_eq fun k hk => by rw [getLsbD_flagVector_of_lt flags sel hk, h k hk]

theorem flagVector_and (flags : BitVec 96) (f g : PinFlags → Bool) :
    flagVector flags (fun x => f x && g x) = flagVector flags f &&& flagVector flags g :=
  flagVector_eq fun k hk => by simp only [BitVec.getLsbD_and, getLsbD_flagVector_of_lt _ _ hk]

theorem flagVector_or (flags : BitVec 96) (f g : PinFlags → Bool) :
    flagVector flags (fun x => f x || g x) = flagVector flags f ||| flagVector flags g :=
  flagVector_eq fun k hk => by simp only [BitVec.getLsbD_or, getLsbD_flagVector_of_lt _ _ hk]

theorem flagVector_bne (flags : BitVec 96) (f g : PinFlags → Bool) :
    flagVector flags (fun x => f x != g x) = flagVector flags f ^^^ flagVector flags g :=
  flagVector_eq fun k hk => by simp only [BitVec.getLsbD_xor, getLsbD_flagVector_of_lt _ _ hk, Bool.xor]

theorem flagVector_not (flags : BitVec 96) (f : PinFlags → Bool) :
    flagVector flags (fun x => !f x) = ~~~flagVector flags f :=
  flagVector_eq fun k hk => by
    simp only [BitVec.getLsbD_not, getLsbD_flagVector_of_lt _ _ hk, hk, decide_true, Bool.true_and]

theorem flagVector_drives (flags : BitVec 96) :
    flagVector flags PinFlags.drives = flagVector flags PinFlags.output &&& ~~~flagVector flags PinFlags.input := by
  rw [← flagVector_not, ← flagVector_and]
  rfl

theorem withBits_zero (pu intEn defVal cmp : Mask16) :
    Accs.zero.withBits pu intEn defVal cmp = { pu := pu, intEn := intEn, defVal := defVal, cmp := cmp } := by
  simp [Accs.zero, Accs.withBits]

/-- Settles O18: over all sixteen pins each gathered mask is a flag vector, and a test put together from flags is the same operation on their
vectors. -/
theorem cfgFoldIsItsClosedForm : Obligations.CfgFoldIsItsClosedForm := by
  intro flags r
  rw [cfgAll, cfgPins_eq_gather]
  simp only [CfgFold.gather, chosenPins_range, withBits_zero, X16Regs.withPins, cfgClosedRegs, cfgClosedAccs, flagVector_drives,
    flagVector_and, flagVector_or, flagVector_bne, flagVector_not, BitVec.and_assoc]

/-- Settles O20: each accumulator of the closed form, and what it adds to `inputMask`, lies within the vector of `Input`. -/
theorem flagsWithoutInputAreIgnored : Obligations.FlagsWithoutInputAreIgnored := by
  intro flags r p hp hin
  rw [cfgFoldIsItsClosedForm flags r]
  have hinput := (getLsbD_flagVector_of_lt flags PinFlags.input hp).trans hin
  refine ⟨?_, ?_, ?_, fun hout => ?_⟩
  · simp only [cfgClosedAccs, BitVec.getLsbD_and, hinput, Bool.false_and, and_self]
  · simp only [cfgClosedRegs, BitVec.getLsbD_or, hinput, Bool.or_false]
  · simp only [cfgClosedRegs, BitVec.getLsbD_or, getLsbD_flagVector_of_lt _ _ hp]
  · have houtput := (getLsbD_flagVector_of_lt flags PinFlags.output hp).trans hout
    simp only [cfgClosedRegs, BitVec.getLsbD_or, BitVec.getLsbD_and, BitVec.getLsbD_not, houtput, hp, decide_true, Bool.true_and,
      Bool.false_and, Bool.not_false, Bool.or_false, Bool.and_true, and_self]

/-! ### The whole script completes -/

/-- Each transaction of a script completes: every request is issued, and the commit has every byte read. -/
theorem pump_ok_all (p : Plan) (rest : List Answer) :
    ∀ (rs : List Request) (oks : List Byte) (b : Busy) (s : State), rs ≠ [] → oks.length = rs.length →
      s.answers = oks.map Answer.ok ++ rest →
      pump p rs b s =
        p.commit (b.bytes ++ (List.zipWith readBytes rs oks).flatten) { s with answers := rest, trace := s.trace ++ rs.tail }
  | [], _, _, _, h, _, _ => absurd rfl h
  | _ :: _, [], _, _, _, h, _ => by simp at h
  | [r], [o], b, s, _, _, ha => by
    rw [pump_last p r b s (by rw [ha]; rfl)]
    simp [State.setAnswers]
  | [_], _ :: _ :: _, _, _, _, h, _ => by simp at h
  | r :: r' :: rs, o :: os, b, s, _, h, ha => by
    rw [pump_more p r r' rs b s (by rw [ha]; rfl), pump_ok_all p rest (r' :: rs) os _ _ (by simp) (by simpa using h) rfl]
    simp [State.setAnswers, State.issue]

theorem launch_ok_all (p : Plan) (rest : List Answer) (oks : List Byte) (b : Busy) (s : State) (h : oks.length = p.script.length)
    (ha : s.answers = oks.map Answer.ok ++ rest) :
    launch p b s =
      p.commit (b.bytes ++ (List.zipWith readBytes p.script oks).flatten) { s with answers := rest, trace := s.trace ++ p.script } := by
  cases hs : p.script with
  | nil =>
    obtain rfl : oks = [] := by simpa [hs] using h
    obtain rfl : s.answers = rest := by simpa using ha
    simp [launch_nil p b s hs]
  | cons r rs =>
    rw [launch_cons p b s hs, pump_ok_all p rest (r :: rs) oks b _ (by simp) (by simpa [hs] using h) (by simpa using ha)]
    simp [State.issue]

/-! ### `X16.CFG` when the controller is ready for it -/

/-- `X16.CFG` past its per-pin steps: accepted, with the registers of the closed form, and nothing on the bus yet. -/
def configured (flags : BitVec 96) (apply : Bool) (s : State) : State :=
  (s.begin (encode (.x16Cfg flags apply))).setX16 (cfgClosedRegs flags s.x16)

theorem exec_x16Cfg {s : State} (flags : BitVec 96) (apply : Bool) (hs : s.readyFor .x16) :
    ∃ b, exec (.x16Cfg flags apply) s =
      .next (launch (planX16Cfg apply (cfgClosedAccs flags) (configured flags apply s)) b (configured flags apply s)) := by
  have hfold : cfgAll flags (s.begin (encode (.x16Cfg flags apply))).x16 =
      { regs := cfgClosedRegs flags s.x16, accs := cfgClosedAccs flags } := cfgFoldIsItsClosedForm flags s.x16
  refine ⟨{ Busy.start (encode (.x16Cfg flags apply)) with accs := cfgClosedAccs flags }, ?_⟩
  simp only [exec, execX16Cfg, accept_ready (.x16Cfg flags apply) _ s hs, hfold]
  rfl

/-- The requests of `X16.CFG` with `APPLY = 1`, the direction pair from the registers just written (R107). -/
theorem planX16Cfg_script (flags : BitVec 96) (s : State) :
    (planX16Cfg true (cfgClosedAccs flags) (configured flags true s)).script =
      cfgScript (cfgClosedRegs flags s.x16).directionMask (cfgClosedAccs flags) := rfl

theorem cfgScript_length (direction : Mask16) (a : Accs) : (cfgScript direction a).length = 5 := rfl

/-- A configured controller that issues requests, takes draws and ends has done nothing else. -/
theorem configured_endCommand (flags : BitVec 96) (apply : Bool) (s : State) (rs : List Request) (as : List Answer) (r : Response) :
    State.endCommand { configured flags apply s with answers := as, trace := s.trace ++ rs } r =
      State.ended { s with x16 := cfgClosedRegs flags s.x16 } rs as r := rfl

/-- Settles O15: without `APPLY` the script is empty, so the command commits at once. -/
theorem cfgWithoutApplyCompletes : Obligations.CfgWithoutApplyCompletes := by
  intro s flags hs
  obtain ⟨b, hexec⟩ := exec_x16Cfg flags false hs
  have hended := configured_endCommand flags false s [] s.answers (.done 0)
  rw [List.append_nil] at hended
  rw [hexec, launch_nil _ _ _ rfl]
  exact congrArg Host.Outcome.next hended

/-- Settles O16: `launch_ok_all` for the five writes. -/
theorem cfgWithApplyCompletes : Obligations.CfgWithApplyCompletes := by
  intro s flags b1 b2 b3 b4 b5 rest hs ha
  obtain ⟨b, hexec⟩ := exec_x16Cfg flags true hs
  rw [hexec, launch_ok_all _ rest [b1, b2, b3, b4, b5] b (configured flags true s) rfl ha, planX16Cfg_script]
  exact congrArg Host.Outcome.next (configured_endCommand flags true s _ rest (.done 0))

/-- Settles O17: `launch_err_at` for the five writes; the registers were written before the first. -/
theorem cfgBusFailureKeepsMasks : Obligations.CfgBusFailureKeepsMasks := by
  intro s flags oks e rest hs hk ha
  obtain ⟨b, hexec⟩ := exec_x16Cfg flags true hs
  have hscript : oks.length < (planX16Cfg true (cfgClosedAccs flags) (configured flags true s)).script.length := by
    rwa [planX16Cfg_script, cfgScript_length]
  rw [hexec, launch_err_at _ e rest oks b (configured flags true s) hscript ha, planX16Cfg_script]
  exact congrArg Host.Outcome.next (configured_endCommand flags true s _ rest (.bus e))

/-! ### Enough completions end a command -/

/-- Taking the next completion uses up one completion that counts, and late ones besides. -/
theorem nextAnswer_of_counts {n : Nat} {as : List Answer} (h : n + 1 ≤ (as.filter Answer.counts).length) :
    ∃ c rest, nextAnswer as = some (c, rest) ∧ n ≤ (rest.filter Answer.counts).length := by
  induction as with
  | nil => simp at h
  | cons a as ih =>
    cases a with
    | late => exact ih h
    | ok x => exact ⟨.ok x, as, rfl, by simpa [List.filter, Answer.counts] using h⟩
    | err e => exact ⟨.error e, as, rfl, by simpa [List.filter, Answer.counts] using h⟩

/-- Transactions of a command end it when each has a completion at hand. -/
theorem pump_phase_of_counts (i : Instr) (c : Busy) (u : State) :
    ∀ (rs : List Request) (b : Busy) (s : State), rs ≠ [] → rs.length ≤ (s.answers.filter Answer.counts).length →
      (pump (planOf i c u) rs b s).phase = .idle
  | [], _, _, h, _ => absurd rfl h
  | r :: rest, b, s, _, hcount => by
    obtain ⟨answer, as, hn, hleft⟩ := nextAnswer_of_counts hcount
    cases answer with
    | error e => rw [pump_err _ r rest b s hn]; exact planOf_fail_phase i c u e _
    | ok x =>
      cases rest with
      | nil => rw [pump_last _ r b s hn]; exact planOf_commit_phase i c u _ _
      | cons r' rest =>
        rw [pump_more _ r r' rest b s hn]
        exact pump_phase_of_counts i c u (r' :: rest) _ _ (by simp) hleft

theorem launch_phase_of_counts (i : Instr) (c : Busy) (u : State) (b : Busy) (s : State)
    (h : 5 ≤ (s.answers.filter Answer.counts).length) : (launch (planOf i c u) b s).phase = .idle := by
  have hlength := planOf_script_length i c u
  cases hscript : (planOf i c u).script with
  | nil => rw [launch_nil _ _ _ hscript]; exact planOf_commit_phase i c u _ s
  | cons r rest =>
    rw [hscript] at hlength
    rw [launch_cons _ _ _ hscript]
    exact pump_phase_of_counts i c u (r :: rest) b _ (by simp) (hlength.trans h)

theorem exec_phase_of_counts {i : Instr} {s t : State} (hp : s.phase = .idle) (h : 5 ≤ (s.answers.filter Answer.counts).length)
    (hexec : exec i s = .next t) : t.phase = .idle := by
  rcases exec_cases hexec with ⟨-, rfl⟩ | ⟨-, r, rfl⟩ | ⟨-, rfl⟩
  · exact hp
  · rfl
  · exact launch_phase_of_counts i _ _ _ _ (by simpa using h)

theorem AnsweredOrWaits.response_isSome {t : State} (h : AnsweredOrWaits t) (hp : t.phase = .idle) : t.response.isSome = true := by
  rcases h with ⟨-, r, hr, -⟩ | ⟨⟨b, hb⟩, -⟩
  · simp [hr]
  · simp [hp] at hb

/-- Settles O43: no script is longer than five, so the command does not end the step waiting, and a command that does not wait has answered. -/
theorem fiveCompletionsEndAnyCommand : Obligations.FiveCompletionsEndAnyCommand := by
  intro s w hr hp hc hcount
  obtain ⟨t, hstep, -, hanswered⟩ := step_presented_answeredOrWaits hr hp hc
  have hphase : t.phase = .idle := by
    rcases step_cases hstep with ⟨-, rfl⟩ | ⟨-, b, hb, -⟩ | ⟨-, -, -, rfl⟩ | ⟨-, -, w, i, -, -, hexec⟩ | ⟨-, -, w, e, -, -, rfl⟩
    · rfl
    · simp [hp] at hb
    · exact hp
    · exact exec_phase_of_counts (s := s.takeCmd) hp hcount hexec
    · rfl
  exact ⟨t, hstep, hphase, hanswered.response_isSome hphase⟩

end Sys2Proof.Machine
end

section
/-! PROOFS. Family `41_x16_read.md`: `X16.RD`, `X16.RDPIN` and `makePinMask` (R120 to R128). Neither command writes a register, so an accepted
read ends in `State.ended` whichever transaction ends it (`launch_read_ok`, `launch_read_err`); and since a mask half of zero masks its half of the
result to zero, the result of `X16.RD` is one 16-bit expression in the chip's value (`rdResult_eq`). -/

namespace Sys2Proof.Machine

/-! ### `makePinMask` -/

/-- One argument of `makePinMask` adds its own bit if it is in 0..15, and nothing otherwise. -/
theorem getLsbD_addPin (m : Mask16) (q : Int) (p : Nat) :
    (if 0 ≤ q ∧ q ≤ 15 then m ||| bit16 q.toNat else m).getLsbD p = (m.getLsbD p || decide (p < 16 ∧ (p : Int) = q)) := by
  split
  · have hbit : (p < 16 ∧ q.toNat = p) ↔ (p < 16 ∧ (p : Int) = q) := by omega
    simp only [BitVec.getLsbD_or, getLsbD_bit16, ← Bool.decide_and, hbit]
  · have hdropped : ¬(p < 16 ∧ (p : Int) = q) := by omega
    simp only [hdropped, decide_false, Bool.or_false]

/-- The fold of `makePinMask`, from any start. -/
theorem getLsbD_foldl_addPin (pins : List Int) (m : Mask16) (p : Nat) :
    (pins.foldl (fun m q => if 0 ≤ q ∧ q ≤ 15 then m ||| bit16 q.toNat else m) m).getLsbD p =
      (m.getLsbD p || decide (p < 16 ∧ (p : Int) ∈ pins)) := by
  induction pins generalizing m with
  | nil => simp
  | cons q qs ih =>
    rw [List.foldl_cons, ih, getLsbD_addPin, Bool.or_assoc]
    simp only [List.mem_cons, and_or_left, Bool.decide_or]

/-- Settles O53: the fold of `makePinMask` starts from the empty mask. -/
theorem makePinMaskDropsOtherPins : Obligations.MakePinMaskDropsOtherPins := by
  intro pins p
  simpa [makePinMask] using getLsbD_foldl_addPin pins 0 p

/-! ### Plans that only read -/

section
/-! A command word `w` accepted in `s`, whose plan `p` writes no register. -/

variable (p : Plan) (s : State) (w : Word) (oks : List Byte) (rest : List Answer)

/-- When every transaction completes, the command answers what its plan makes of the bytes read and does nothing else. -/
theorem launch_read_ok {data : X16Regs → List Byte → Mask16} (hcommit : ∀ bytes t, p.commit bytes t = respondOk (data t.x16 bytes) t)
    (hlength : oks.length = p.script.length) (ha : s.answers = oks.map Answer.ok ++ rest) :
    launch p (Busy.start w) (s.begin w) =
      s.ended p.script rest (.done (data s.x16 (List.zipWith readBytes p.script oks).flatten)) := by
  rw [launch_ok_all p rest oks (Busy.start w) (s.begin w) hlength ha, hcommit]
  rfl

/-- When a transaction fails, the command answers `ERR_BUS`, issues no later transaction and does nothing else (R203). -/
theorem launch_read_err {e : BusErr} (hfail : p.fail = raiseBus) (hlength : oks.length < p.script.length)
    (ha : s.answers = oks.map Answer.ok ++ .err e :: rest) :
    launch p (Busy.start w) (s.begin w) = s.ended (p.script.take (oks.length + 1)) rest (.bus e) := by
  rw [launch_err_at p e rest oks (Busy.start w) (s.begin w) hlength ha, hfail]
  rfl

end

/-! ### `X16.RD` -/

theorem exec_x16Rd {s : State} (mask : Mask16) (hs : s.readyFor .x16) :
    exec (.x16Rd mask) s =
      .next (launch (planX16Rd mask) (Busy.start (encode (.x16Rd mask))) (s.begin (encode (.x16Rd mask)))) :=
  exec_ready (.x16Rd mask) s hs

theorem planX16Rd_script (mask : Mask16) : (planX16Rd mask).script = rdScript mask := rfl

/-- The completions that `X16.RD` takes from a chip whose ports hold `chip`: for each half read one for its select, `x` or `y`, and one with
its byte. -/
def rdCompletions (mask chip : Mask16) (x y : Byte) : List Byte :=
  (if lo mask = 0 then [] else [x, lo chip]) ++ (if hi mask = 0 then [] else [y, hi chip])

theorem map_ok_rdCompletions (mask chip : Mask16) (x y : Byte) :
    (rdCompletions mask chip x y).map Answer.ok =
      (if lo mask = 0 then [] else [.ok x, .ok (lo chip)]) ++ (if hi mask = 0 then [] else [.ok y, .ok (hi chip)]) := by
  simp only [rdCompletions, List.map_append, apply_ite (List.map Answer.ok), List.map_cons, List.map_nil]

theorem rdCompletions_length (mask chip : Mask16) (x y : Byte) :
    (rdCompletions mask chip x y).length = (rdScript mask).length := by
  simp only [rdCompletions, rdScript, readPort, List.length_append, apply_ite List.length, List.length_cons, List.length_nil]

/-- Of the two transactions of a half only the read returns a byte (R51). -/
theorem readBytes_half (half reg x b : Byte) :
    (List.zipWith readBytes (if half = 0 then [] else readPort reg) (if half = 0 then [] else [x, b])).flatten =
      if half = 0 then [] else [b] := by
  split <;> rfl

/-- Each half with a mask bit leaves the byte of its port, port A's first (R122). -/
theorem readBytes_rdScript (mask chip : Mask16) (x y : Byte) :
    (List.zipWith readBytes (rdScript mask) (rdCompletions mask chip x y)).flatten =
      (if lo mask = 0 then [] else [lo chip]) ++ (if hi mask = 0 then [] else [hi chip]) := by
  have hlength : (if lo mask = 0 then [] else readPort portA).length = (if lo mask = 0 then [] else [x, lo chip]).length := by
    split <;> rfl
  rw [rdScript, rdCompletions, List.zipWith_append hlength, List.flatten_append, readBytes_half, readBytes_half]

/-- The result of `X16.RD` half by half, from the bytes read (R122, R123). -/
theorem rdData_halves (mask chip : Mask16) (r : X16Regs) :
    rdData mask r ((if lo mask = 0 then [] else [lo chip]) ++ (if hi mask = 0 then [] else [hi chip])) =
      joinHalves (if hi mask = 0 then 0 else rdHalf (hi chip) (hi r.activeLowMask) (hi mask) (hi r.inputMask))
        (if lo mask = 0 then 0 else rdHalf (lo chip) (lo r.activeLowMask) (lo mask) (lo r.inputMask)) := by
  by_cases hlo : lo mask = 0 <;> by_cases hhi : hi mask = 0 <;> simp only [rdData, hlo, hhi, if_true, if_false] <;> rfl

/-- Settles O23: every transaction of the script completes. -/
theorem rdCompletes : Obligations.RdCompletes := by
  intro s mask chip x y rest hs ha
  rw [← map_ok_rdCompletions] at ha
  rw [exec_x16Rd mask hs,
    launch_read_ok (planX16Rd mask) s _ _ rest (data := rdData mask) (fun _ _ => rfl) (rdCompletions_length mask chip x y) ha]
  rw [planX16Rd_script, readBytes_rdScript, rdData_halves]
  rfl

/-- A half without a mask bit is masked to zero, so that not reading it does not show in the result. -/
theorem rdHalf_of_mask_zero (b activeLow mask input : Byte) :
    (if mask = 0 then 0 else rdHalf b activeLow mask input) = rdHalf b activeLow mask input := by
  split
  · next h => simp [rdHalf, h]
  · rfl

theorem joinHalves_hi_lo (v : Mask16) : joinHalves (hi v) (lo v) = v := by
  apply BitVec.eq_of_getLsbD_eq
  intro i hi16
  rw [getLsbD_joinHalves, getLsbD_lo, getLsbD_hi]
  split
  · next h => simp [h]
  · next h =>
    have hport : i - 8 < 8 := by omega
    have hpin : 8 + (i - 8) = i := by omega
    simp only [hport, hpin, decide_true, Bool.true_and]

theorem joinHalves_rdHalf (chip activeLow mask input : Mask16) :
    joinHalves (rdHalf (hi chip) (hi activeLow) (hi mask) (hi input)) (rdHalf (lo chip) (lo activeLow) (lo mask) (lo input)) =
      (chip ^^^ activeLow) &&& mask &&& input := by
  rw [← joinHalves_hi_lo ((chip ^^^ activeLow) &&& mask &&& input)]
  simp only [rdHalf, hi, lo, BitVec.extractLsb'_and, BitVec.extractLsb'_xor]

/-- The result of `X16.RD` as one 16-bit value (R124). -/
theorem rdResult_eq (mask chip : Mask16) (r : X16Regs) :
    joinHalves (if hi mask = 0 then 0 else rdHalf (hi chip) (hi r.activeLowMask) (hi mask) (hi r.inputMask))
        (if lo mask = 0 then 0 else rdHalf (lo chip) (lo r.activeLowMask) (lo mask) (lo r.inputMask)) =
      (chip ^^^ r.activeLowMask) &&& mask &&& r.inputMask := by
  rw [rdHalf_of_mask_zero, rdHalf_of_mask_zero, joinHalves_rdHalf]

/-- Settles O24: the bits of `rdResult_eq`. -/
theorem rdResultBits : Obligations.RdResultBits := by
  intro s mask chip x y rest hs ha
  refine ⟨_, (chip ^^^ s.x16.activeLowMask) &&& mask &&& s.x16.inputMask, rdCompletes s mask chip x y rest hs ha, ?_,
    fun p _ => ⟨?_, fun hmask hinput => ?_⟩⟩
  · rw [← rdResult_eq]
    rfl
  · rintro (hmask | hinput)
    · simp only [BitVec.getLsbD_and, hmask, Bool.and_false, Bool.false_and]
    · simp only [BitVec.getLsbD_and, hinput, Bool.and_false]
  · simp only [BitVec.getLsbD_and, BitVec.getLsbD_xor, hmask, hinput, Bool.and_true]

/-- Settles O25: `launch_read_err` for the script of `X16.RD`. -/
theorem rdBusFailureChangesNothing : Obligations.RdBusFailureChangesNothing := by
  intro s mask oks e rest hs hk ha
  rw [exec_x16Rd mask hs, launch_read_err (planX16Rd mask) s _ oks rest rfl hk ha]
  rfl

/-! ### `X16.RDPIN` -/

theorem exec_x16RdPin {s : State} (pin : BitVec 4) (hs : s.readyFor .x16) :
    exec (.x16RdPin pin) s =
      .next (if s.x16.directionMask.getLsbD pin.toNat then
        launch (planX16RdPin pin) (Busy.start (encode (.x16RdPin pin))) (s.begin (encode (.x16RdPin pin)))
      else raiseDir (s.begin (encode (.x16RdPin pin)))) :=
  exec_ready (.x16RdPin pin) s hs

/-- The register number of a pin's port, as R126 computes it. -/
theorem portOf_eq (pin : BitVec 4) : portOf pin = 0x12 + (pin.extractLsb' 3 1).zeroExtend 8 := by
  revert pin
  decide

theorem planX16RdPin_script (pin : BitVec 4) :
    (planX16RdPin pin).script = [.select (0x12 + (pin.extractLsb' 3 1).zeroExtend 8), .read] := by
  rw [← portOf_eq]
  rfl

theorem bitInPort_eq (pin : BitVec 4) : bitInPort pin = pin.toNat % 8 := by
  simp [bitInPort]

theorem halfOf_eq (pin : BitVec 4) (v : Mask16) : halfOf pin v = if pin.getLsbD 3 then hi v else lo v := rfl

theorem zeroExtend_ofBool (c : Bool) : (BitVec.ofBool c).zeroExtend 16 = if c then 0x0001#16 else 0x0000#16 := by
  cases c <;> rfl

theorem rdPinData_eq (pin : BitVec 4) (r : X16Regs) (b : Byte) :
    rdPinData pin r b =
      if (b ^^^ (if pin.getLsbD 3 then hi r.activeLowMask else lo r.activeLowMask)).getLsbD (pin.toNat % 8) then 0x0001 else 0x0000 := by
  rw [rdPinData, zeroExtend_ofBool, bitInPort_eq, halfOf_eq]
  rfl

/-- Settles O26: the check of the pin's direction, then `launch_read_ok` and `launch_read_err` for the two transactions of its port. -/
theorem rdPinCompletes : Obligations.RdPinCompletes := by
  intro s pin hs
  refine ⟨fun hout => ?_, fun hin => ?_⟩
  · rw [exec_x16RdPin pin hs, hout, if_neg Bool.false_ne_true, raiseDir_eq, begin_endCommand]
    rfl
  · have hexec := exec_x16RdPin pin hs
    rw [hin, if_pos rfl] at hexec
    refine ⟨fun x b rest ha => ?_, fun e rest ha => ?_, fun x e rest ha => ?_⟩
    · rw [hexec, launch_read_ok (planX16RdPin pin) s _ [x, b] rest (data := fun r bytes => rdPinData pin r (byteAt bytes 0))
        (fun _ _ => rfl) rfl ha, planX16RdPin_script, ← rdPinData_eq]
      rfl
    · rw [hexec, launch_read_err (planX16RdPin pin) s _ [] rest rfl (by simp [planX16RdPin_script]) ha, planX16RdPin_script]
      rfl
    · rw [hexec, launch_read_err (planX16RdPin pin) s _ [x] rest rfl (by simp [planX16RdPin_script]) ha, planX16RdPin_script]
      rfl

end Sys2Proof.Machine
end

section
/-! PROOFS. Family `42_x16_write.md`: `X16.WR` and `X16.WRPIN` (R140 to R148). Both commands run `planMaskedWrite`, so how it ends is said once
(`launch_maskedWrite_ok`, `launch_maskedWrite_err`), without the command word; `X16.WRPIN` past its check is the case of a one-bit mask, whose
script is one write (`wrScript_outputPin`). -/

namespace Sys2Proof.Machine

/-! ### The masked register write -/

section
/-! A command word `w` accepted in `s`, which sends the halves of `new` that `m` touches. -/

variable (s : State) (w : Word) (m new : Mask16) (oks : List Byte) (rest : List Answer)

/-- When every write completes, `outputCache` holds the merged value and nothing else changes (COMMIT of R148). -/
theorem launch_maskedWrite_ok (hlength : oks.length = (wrScript m new s.x16).length) (ha : s.answers = oks.map Answer.ok ++ rest) :
    launch (planMaskedWrite m new s.x16) (Busy.start w) (s.begin w) =
      (s.setOutputCache new).ended (wrScript m new s.x16) rest (.done 0x0000) := by
  rw [launch_ok_all (planMaskedWrite m new s.x16) rest oks (Busy.start w) (s.begin w) hlength ha]
  rfl

/-- When a write fails, no later one is issued and `outputCache` is the draw of R144 (FAIL of R148). -/
theorem launch_maskedWrite_err {e : BusErr} (hlength : oks.length < (wrScript m new s.x16).length)
    (ha : s.answers = oks.map Answer.ok ++ .err e :: rest) :
    launch (planMaskedWrite m new s.x16) (Busy.start w) (s.begin w) =
      (s.setOutputCache (if Config.failedWriteTakesNew s.draws then new else s.x16.outputCache)).useDraw.ended
        ((wrScript m new s.x16).take (oks.length + 1)) rest (.bus e) := by
  rw [launch_err_at (planMaskedWrite m new s.x16) e rest oks (Busy.start w) (s.begin w) hlength ha]
  rfl

end

/-! ### `X16.WR` -/

/-- `X16.WR` sends what MERGE of R148 makes of its operands. -/
theorem exec_x16Wr {s : State} {mask val m new : Mask16} (hs : s.readyFor .x16) (hm : m = wrMask mask s.x16)
    (hnew : new = wrMerge m val s.x16) :
    exec (.x16Wr mask val) s =
      .next (launch (planMaskedWrite m new s.x16) (Busy.start (encode (.x16Wr mask val))) (s.begin (encode (.x16Wr mask val)))) := by
  subst hm hnew
  exact exec_ready (.x16Wr mask val) s hs

/-- The completions that the writes under `m` take: `x` for the port A half and `y` for the port B half, each if `m` touches it. -/
def wrCompletions (m : Mask16) (x y : Byte) : List Byte :=
  (if lo m = 0 then [] else [x]) ++ (if hi m = 0 then [] else [y])

theorem map_ok_wrCompletions (m : Mask16) (x y : Byte) :
    (wrCompletions m x y).map Answer.ok = (if lo m = 0 then [] else [.ok x]) ++ (if hi m = 0 then [] else [.ok y]) := by
  simp only [wrCompletions, List.map_append, apply_ite (List.map Answer.ok), List.map_cons, List.map_nil]

theorem wrCompletions_length (m new : Mask16) (r : X16Regs) (x y : Byte) :
    (wrCompletions m x y).length = (wrScript m new r).length := by
  simp only [wrCompletions, wrScript, List.length_append, apply_ite List.length, List.length_cons, List.length_nil]

/-- Settles O27: every write of the script completes. -/
theorem wrCompletes : Obligations.WrCompletes := by
  intro s mask val m new x y rest hs hm hnew ha
  rw [← map_ok_wrCompletions] at ha
  rw [exec_x16Wr hs hm hnew, launch_maskedWrite_ok s _ m new _ rest (wrCompletions_length m new s.x16 x y) ha]
  rfl

/-- Settles O28: `launch_maskedWrite_err` for the script of `X16.WR`. -/
theorem wrBusFailureDrawsTheCache : Obligations.WrBusFailureDrawsTheCache := by
  intro s mask val m new oks e rest hs hm hnew hk ha
  rw [exec_x16Wr hs hm hnew, launch_maskedWrite_err s _ m new oks rest hk ha]
  rfl

/-! ### The mask of one output pin -/

/-- Of an output pin's mask the restriction to `outputMask` drops nothing (R146). -/
theorem wrMask_outputPin {r : X16Regs} {pin : BitVec 4} (hout : r.outputMask.getLsbD pin.toNat = true) :
    wrMask (bit16 pin.toNat) r = bit16 pin.toNat := by
  rw [wrMask, bit16, BitVec.twoPow_and, hout, if_pos rfl]

theorem pinLevel_eq (pin : BitVec 4) (value : Bool) : pinLevel pin value = if value then bit16 pin.toNat else 0 := by
  cases value with
  | false => exact BitVec.zero_shiftLeft pin.toNat
  | true => exact (BitVec.twoPow_eq 16 pin.toNat).symm

/-- Merging one pin's level sets or clears the pin's bit (R146). -/
theorem wrMerge_pinLevel (pin : BitVec 4) (value : Bool) (r : X16Regs) :
    wrMerge (bit16 pin.toNat) (pinLevel pin value) r =
      if value then r.outputCache ||| bit16 pin.toNat else r.outputCache &&& ~~~bit16 pin.toNat := by
  rw [wrMerge, pinLevel_eq]
  cases value with
  | false => simp
  | true =>
    apply BitVec.eq_of_getLsbD_eq
    intro i hlt
    simp only [if_true, BitVec.getLsbD_or, BitVec.getLsbD_and, BitVec.getLsbD_not, hlt, decide_true, Bool.true_and]
    cases (bit16 pin.toNat).getLsbD i <;> simp

/-- A pin's mask touches the half of the pin's own port alone (R54). -/
theorem halves_bit16 (pin : BitVec 4) :
    (lo (bit16 pin.toNat) = 0 ↔ pin.getLsbD 3 = true) ∧ (hi (bit16 pin.toNat) = 0 ↔ pin.getLsbD 3 = false) := by
  revert pin
  decide

/-- One pin's write is one transaction, to the pin's own port (R146). -/
theorem wrScript_bit16 (pin : BitVec 4) (new : Mask16) (r : X16Regs) :
    wrScript (bit16 pin.toNat) new r =
      [if pin.getLsbD 3 then .write 0x13 [hi new ^^^ hi r.activeLowMask] else .write 0x12 [lo new ^^^ lo r.activeLowMask]] := by
  obtain ⟨hlo, hhi⟩ := halves_bit16 pin
  simp only [wrScript, hlo, hhi]
  cases pin.getLsbD 3 <;> rfl

theorem wrScript_bit16_length (pin : BitVec 4) (new : Mask16) (r : X16Regs) : (wrScript (bit16 pin.toNat) new r).length = 1 := by
  rw [wrScript_bit16, List.length_singleton]

/-! ### `X16.WRPIN` -/

theorem exec_x16WrPin {s : State} (pin : BitVec 4) (value : Bool) (hs : s.readyFor .x16) :
    exec (.x16WrPin pin value) s =
      .next (if s.x16.outputMask.getLsbD pin.toNat then
        launch (planX16WrPin pin value s) (Busy.start (encode (.x16WrPin pin value))) (s.begin (encode (.x16WrPin pin value)))
      else raiseDir (s.begin (encode (.x16WrPin pin value)))) :=
  exec_ready (.x16WrPin pin value) s hs

/-- `X16.WRPIN` past its check sends what MERGE of R148 makes of the pin's level under the pin's own mask. -/
theorem exec_x16WrPin_outputPin {s : State} {pin : BitVec 4} {value : Bool} {new : Mask16} (hs : s.readyFor .x16)
    (hout : s.x16.outputMask.getLsbD pin.toNat = true) (hnew : new = wrMerge (bit16 pin.toNat) (pinLevel pin value) s.x16) :
    exec (.x16WrPin pin value) s =
      .next (launch (planMaskedWrite (bit16 pin.toNat) new s.x16) (Busy.start (encode (.x16WrPin pin value)))
        (s.begin (encode (.x16WrPin pin value)))) := by
  rw [exec_x16WrPin pin value hs, hout, if_pos rfl, planX16WrPin, wrMask_outputPin hout, hnew]

/-- Settles O29: the check of the pin's direction, then the one write of `wrScript_bit16`, which completes or fails. -/
theorem wrPinCompletes : Obligations.WrPinCompletes := by
  intro s pin value new hs hnew
  refine ⟨fun hnot => ?_, fun hout => ?_⟩
  · rw [exec_x16WrPin pin value hs, hnot, if_neg Bool.false_ne_true, raiseDir_eq, begin_endCommand]
    rfl
  · have hexec := exec_x16WrPin_outputPin hs hout (hnew.trans (wrMerge_pinLevel pin value s.x16).symm)
    have hlength := wrScript_bit16_length pin new s.x16
    refine ⟨fun x rest ha => ?_, fun e rest ha => ?_⟩
    · rw [hexec, launch_maskedWrite_ok s _ _ new [x] rest hlength.symm ha, wrScript_bit16]
      rfl
    · rw [hexec, launch_maskedWrite_err s _ _ new [] rest (by simp [hlength]) ha, wrScript_bit16]
      rfl

/-- Settles O30: both commands run the same one write; once it is answered, the command words, which alone differ, are gone. -/
theorem wrPinIsWrOfOneBit : Obligations.WrPinIsWrOfOneBit := by
  intro s pin value a rest hs hout ha hlate
  have hwr := exec_x16Wr (val := pinLevel pin value) hs (wrMask_outputPin hout).symm rfl
  have hlength := wrScript_bit16_length pin (wrMerge (bit16 pin.toNat) (pinLevel pin value) s.x16) s.x16
  refine (exec_x16WrPin_outputPin hs hout rfl).trans (Eq.trans ?_ hwr.symm)
  cases a with
  | ok x => rw [launch_maskedWrite_ok s _ _ _ [x] rest hlength.symm ha, launch_maskedWrite_ok s _ _ _ [x] rest hlength.symm ha]
  | err e =>
    have hfirst : ([] : List Byte).length < _ := hlength ▸ Nat.one_pos
    rw [launch_maskedWrite_err s _ _ _ [] rest hfirst ha, launch_maskedWrite_err s _ _ _ [] rest hfirst ha]
  | late => exact absurd rfl hlate

/-! ### The tests of the two single-pin commands -/

/-- Transactions answer `OK` or `ERR_BUS` or wait, never `ERR_DIR`. -/
theorem PumpResult.response_ne_dir {i : Instr} {c b : Busy} {u s t : State} {rs : List Request}
    (h : PumpResult (planOf i c u) rs b s t) (hresponse : s.response = none) : t.response ≠ some .dir := by
  cases h with
  | waits hv => simp [hv.response, hresponse]
  | @commits bytes v _ =>
    rcases planOf_commit i c u bytes v with ⟨d, hc⟩ | ⟨-, x, d, hc⟩ | ⟨-, mask, val, hc⟩ <;>
      simp [hc, Response.done, Response.dir]
  | @fails e v _ =>
    rcases planOf_fail i c u e v with hf | ⟨-, mask, val, hf⟩ <;> simp [hf, Response.bus, Response.dir]

/-- A command that the controller is ready for is answered `ERR_DIR` exactly when it does not pass its check (R201). -/
theorem exec_eq_errDir_iff {i : Instr} {s : State} (hs : s.readyFor i.variant) :
    exec i s = .next (s.ended [] s.answers .dir) ↔ passesCheck i s = false := by
  rw [exec_ready i s hs]
  cases hcheck : passesCheck i s with
  | false => simp [begin_endCommand]
  | true =>
    have hresult := launch_result (planOf i (startCtx i s) (prelude i (s.begin (encode i)))) (startCtx i s)
      (prelude i (s.begin (encode i)))
    have hne := hresult.response_ne_dir (by simp)
    simp only [if_true, Bool.true_eq_false, iff_false]
    intro h
    injection h with h
    exact hne (by rw [h]; rfl)

/-- Settles O31: each test reads the pin's bit of its own mask, and the masks are complements. -/
theorem singlePinTestsAreComplementary : Obligations.SinglePinTestsAreComplementary := by
  intro s pin value hs hcoherent
  obtain ⟨hdirection, -⟩ := (coherent_iff s.x16).mp hcoherent
  have hbits : s.x16.directionMask.getLsbD pin.toNat = !s.x16.outputMask.getLsbD pin.toNat := by
    simp [hdirection, pin.isLt]
  have hrd := exec_eq_errDir_iff (i := .x16RdPin pin) hs
  have hwr := exec_eq_errDir_iff (i := .x16WrPin pin value) hs
  refine hrd.trans (Iff.trans ?_ (not_congr hwr).symm)
  simp [passesCheck, hbits]

end Sys2Proof.Machine
end

section
/-! PROOFS. Family `43_x8_port.md`: the GXC8 port commands (R160 to R172). Each has one transaction. The four that write store `portCache`, send
one byte and write nothing more, whatever the bus answers, so how they end is said once for all four (`exec_of_sending`); the two that read differ
in their `DATA` alone (`exec_of_reading`). -/

namespace Sys2Proof.Machine

/-! ### The one write -/

section

variable {i : Instr} {s : State} {rest : List Answer} (cache sent : Byte)

/-- The command `i` accepted, with `cache` stored in `portCache` before the byte `sent` goes on the bus (R161). -/
def sending (i : Instr) (cache sent : Byte) (s : State) : State :=
  launch (planSendPort sent) (Busy.start (encode i)) ((s.setPortCache cache).begin (encode i))

theorem sending_ok {x : Byte} (ha : s.answers = .ok x :: rest) :
    sending i cache sent s = (s.setPortCache cache).ended [.write sent []] rest (.done 0x0000) :=
  launch_read_ok (planSendPort sent) (s.setPortCache cache) (encode i) [x] rest (data := fun _ _ => 0x0000) (fun _ _ => rfl) rfl ha

theorem sending_err {e : BusErr} (ha : s.answers = .err e :: rest) :
    sending i cache sent s = (s.setPortCache cache).ended [.write sent []] rest (.bus e) :=
  launch_read_err (planSendPort sent) (s.setPortCache cache) (encode i) [] rest rfl Nat.one_pos ha

variable {cache sent}

/-- Both answers to a GXC8 write; `portCache` is the same with either. -/
theorem exec_of_sending (hexec : exec i s = .next (sending i cache sent s)) :
    (∀ x, s.answers = .ok x :: rest →
      exec i s = .next ((s.setPortCache cache).ended [.write sent []] rest (.done 0x0000))) ∧
    (∀ e, s.answers = .err e :: rest →
      exec i s = .next ((s.setPortCache cache).ended [.write sent []] rest (.bus e))) :=
  ⟨fun _ ha => by rw [hexec, sending_ok cache sent ha], fun _ ha => by rw [hexec, sending_err cache sent ha]⟩

end

/-! ### The commands that write -/

theorem exec_x8Wr {s : State} (val : Byte) (hs : s.readyFor .x8) : exec (.x8Wr val) s = .next (sending (.x8Wr val) val val s) :=
  exec_ready (.x8Wr val) s hs

theorem exec_x8WrPin {s : State} (pin : BitVec 3) (value : Bool) (hs : s.readyFor .x8) :
    exec (.x8WrPin pin value) s =
      .next (sending (.x8WrPin pin value) (writeBit s.x8.portCache pin value) (writeBit s.x8.portCache pin value) s) :=
  exec_ready (.x8WrPin pin value) s hs

theorem exec_x8Tgl {s : State} (pin : BitVec 3) (hs : s.readyFor .x8) :
    exec (.x8Tgl pin) s =
      .next (sending (.x8Tgl pin) (s.x8.portCache ^^^ bit8 pin.toNat) (s.x8.portCache ^^^ bit8 pin.toNat) s) :=
  exec_ready (.x8Tgl pin) s hs

theorem exec_x8Cleanup {s : State} (hs : s.readyFor .x8) :
    exec .x8Cleanup s = .next (sending .x8Cleanup (cleanupCache Config.x8CleanupCache s.x8.portCache) 0xFF s) :=
  exec_ready .x8Cleanup s hs

/-- Settles O33: `exec_of_sending` with the byte of the command. -/
theorem x8WrCompletes : Obligations.X8WrCompletes :=
  fun _ val _ hs => exec_of_sending (exec_x8Wr val hs)

/-- Settles O34: `exec_of_sending` with the byte of `writeBit`. -/
theorem x8WrPinCompletes : Obligations.X8WrPinCompletes := by
  intro s pin value new rest hs hnew
  obtain rfl : new = writeBit s.x8.portCache pin value := hnew
  exact exec_of_sending (exec_x8WrPin pin value hs)

/-- Settles O35: `exec_of_sending` with the pin's bit flipped. -/
theorem x8TglCompletes : Obligations.X8TglCompletes :=
  fun _ pin _ hs => exec_of_sending (exec_x8Tgl pin hs)

/-- The two settings of `X8_CLEANUP_CACHE` determine `portCache` after `X8.CLEANUP` (R172). -/
theorem eq_cleanupCache {c : CleanupCache} {v cache : Byte} (hset : c = .setFF → v = 0xFF) (hkeep : c = .keep → v = cache) :
    v = cleanupCache c cache := by
  cases c with
  | keep => exact hkeep rfl
  | setFF => exact hset rfl

/-- Settles O39: `exec_of_sending`, with 0xFF on the bus whatever is stored. -/
theorem x8CleanupCompletes : Obligations.X8CleanupCompletes := by
  intro s rest cache hs hset hkeep
  obtain rfl := eq_cleanupCache hset hkeep
  exact exec_of_sending (exec_x8Cleanup hs)

/-! ### Two toggles -/

/-- Once its write is answered, `X8.TGL` has flipped the pin's bit, whatever the answer, and the controller is ready again. -/
theorem exec_x8Tgl_answered {s : State} (pin : BitVec 3) {a : Answer} {rest : List Answer} (hs : s.readyFor .x8)
    (ha : s.answers = a :: rest) (hlate : a ≠ .late) :
    ∃ t, exec (.x8Tgl pin) s = .next t ∧ t.readyFor .x8 ∧ t.answers = rest ∧
      t.x8 = { s.x8 with portCache := s.x8.portCache ^^^ bit8 pin.toNat } := by
  obtain ⟨hok, herr⟩ := exec_of_sending (rest := rest) (exec_x8Tgl pin hs)
  cases a with
  | ok x => exact ⟨_, hok x ha, ⟨rfl, hs.2⟩, rfl, rfl⟩
  | err e => exact ⟨_, herr e ha, ⟨rfl, hs.2⟩, rfl, rfl⟩
  | late => exact absurd rfl hlate

theorem getLsbD_xor_bit8 (v : Byte) (pin : BitVec 3) {p : Nat} (hp : p < 8) :
    (v ^^^ bit8 pin.toNat).getLsbD p = (v.getLsbD p ^^ decide (p = pin.toNat)) := by
  simp only [BitVec.getLsbD_xor, getLsbD_bit8, hp, decide_true, Bool.true_and, eq_comm]

/-- Settles O36: the first toggle leaves the controller ready for the second, which flips the same bit back. -/
theorem twoTogglesRestoreThePort : Obligations.TwoTogglesRestoreThePort := by
  intro s pin a1 a2 rest hs ha hlate1 hlate2
  obtain ⟨t, ht, hready, hrest, htx8⟩ := exec_x8Tgl_answered pin hs ha hlate1
  obtain ⟨u, hu, -, -, hux8⟩ := exec_x8Tgl_answered pin hready hrest hlate2
  refine ⟨t, u, ht, hu, ?_, fun p hp => ?_⟩
  · simp only [hux8, htx8, BitVec.xor_assoc, BitVec.xor_self, BitVec.xor_zero]
  · rw [htx8, getLsbD_xor_bit8 s.x8.portCache pin hp]

/-! ### The one read -/

section

variable {i : Instr} {s : State} {rest : List Answer} (data : Byte → Mask16)

/-- The command `i` accepted, with a read on the bus and `DATA` computed from its byte. -/
def reading (i : Instr) (data : Byte → Mask16) (s : State) : State :=
  launch (planReadPort data) (Busy.start (encode i)) (s.begin (encode i))

theorem reading_ok {b : Byte} (ha : s.answers = .ok b :: rest) :
    reading i data s = (s.setPinCache b).ended [.read] rest (.done (data b)) := by
  rw [reading, launch_ok_all (planReadPort data) rest [b] (Busy.start (encode i)) (s.begin (encode i)) rfl ha]
  rfl

theorem reading_err {e : BusErr} (ha : s.answers = .err e :: rest) : reading i data s = s.ended [.read] rest (.bus e) :=
  launch_read_err (planReadPort data) s (encode i) [] rest rfl Nat.one_pos ha

variable {data}

/-- Both answers to a GXC8 read; only a byte that came is stored (R167). -/
theorem exec_of_reading (hexec : exec i s = .next (reading i data s)) :
    (∀ b, s.answers = .ok b :: rest → exec i s = .next ((s.setPinCache b).ended [.read] rest (.done (data b)))) ∧
    (∀ e, s.answers = .err e :: rest → exec i s = .next (s.ended [.read] rest (.bus e))) :=
  ⟨fun _ ha => by rw [hexec, reading_ok data ha], fun _ ha => by rw [hexec, reading_err data ha]⟩

end

/-! ### The commands that read -/

theorem exec_x8Rd {s : State} (hs : s.readyFor .x8) : exec .x8Rd s = .next (reading .x8Rd rdByteData s) :=
  exec_ready .x8Rd s hs

theorem exec_x8RdPin {s : State} (pin : BitVec 3) (hs : s.readyFor .x8) :
    exec (.x8RdPin pin) s = .next (reading (.x8RdPin pin) (rdBitData pin) s) :=
  exec_ready (.x8RdPin pin) s hs

/-- Settles O37: `exec_of_reading` with the byte as `DATA`. -/
theorem x8RdCompletes : Obligations.X8RdCompletes :=
  fun _ _ hs => exec_of_reading (exec_x8Rd hs)

/-- Settles O38: `exec_of_reading` with the pin's bit of the byte as `DATA`. -/
theorem x8RdPinCompletes : Obligations.X8RdPinCompletes := by
  intro s pin rest hs
  obtain ⟨hok, herr⟩ := exec_of_reading (rest := rest) (exec_x8RdPin pin hs)
  refine ⟨fun b ha => ?_, herr⟩
  rw [hok b ha, rdBitData, zeroExtend_ofBool]
  rfl

end Sys2Proof.Machine
end

section
/-! PROOFS. Family `60_exceptions.md`: errors are responses (R200 to R208). A word that no row takes is answered without a command having run; a
command that the controller is ready for ends `ERR_DIR` where it does not pass its check and `ERR_BUS` only where its plan has a transaction
(`exec_response`). -/

namespace Sys2Proof.Machine

/-! ### Words that no row takes -/

/-- The decoder refuses a word that no row of the variant takes (R81, R83). -/
theorem exists_decode_error {v : Variant} {w : Word} (h : ∀ r ∈ rows, r.variant = v → w &&& r.mask ≠ r.pattern) :
    ∃ e, decode v w = .error e := by
  cases hdec : decode v w with
  | error e => exact ⟨e, rfl⟩
  | ok i =>
    obtain ⟨r, hr, htakes, -⟩ := exists_row_of_decode hdec
    obtain ⟨hrow, hv⟩ := mem_rowsOf.mp hr
    exact absurd ((takes_iff r w).mp htakes) (h r hrow hv)

/-- Settles O7: the step accepts the word only to raise `ErrIllegal`. -/
theorem illegalWordIsAnsweredAndChangesNothing : Obligations.IllegalWordIsAnsweredAndChangesNothing := by
  intro s w hr hp hc hrows
  obtain ⟨e, hdec⟩ := exists_decode_error hrows
  rw [step_of_illegal hr hp hc hdec, acceptIllegal, raiseIllegal_eq, begin_endCommand]
  rfl

/-! ### Every branch of the step answers a next state -/

/-- Settles O11: a command that accepts a presented word answers or waits (`step_presented_answeredOrWaits`); the other branches are equations. -/
theorem stepNeverStops : Obligations.StepNeverStops := by
  intro s
  cases hr : s.rst with
  | true => exact ⟨_, step_of_rst hr⟩
  | false =>
    cases hp : s.phase with
    | busy b => exact ⟨_, step_of_busy hr hp⟩
    | idle =>
      cases hc : s.cmd with
      | none => exact ⟨_, step_of_noCmd hr hp hc⟩
      | some w =>
        obtain ⟨t, hstep, -⟩ := step_presented_answeredOrWaits hr hp hc
        exact ⟨t, hstep⟩

/-! ### With which status a command can end -/

theorem planOf_commit_status {i : Instr} {b : Busy} {s t : State} {bytes : List Byte} {r : Response}
    (hr : ((planOf i b s).commit bytes t).response = some r) : r.status = .ok := by
  rcases planOf_commit i b s bytes t with ⟨d, h⟩ | ⟨-, x, d, h⟩ | ⟨-, mask, val, h⟩ <;>
    (rw [h] at hr; cases hr; rfl)

theorem planOf_fail_status {i : Instr} {b : Busy} {s t : State} {e : BusErr} {r : Response}
    (hr : ((planOf i b s).fail e t).response = some r) : r.status = .errBus := by
  rcases planOf_fail i b s e t with h | ⟨-, mask, val, h⟩ <;>
    (rw [h] at hr; cases hr; rfl)

/-- Transactions that answer, answer `OK` or `ERR_BUS`. -/
theorem PumpResult.status {i : Instr} {c b : Busy} {u s t : State} {rs : List Request} {r : Response}
    (h : PumpResult (planOf i c u) rs b s t) (hresponse : s.response = none) (hr : t.response = some r) :
    r.status = .ok ∨ r.status = .errBus := by
  cases h with
  | waits hv => simp [hv.response, hresponse] at hr
  | commits => exact .inl (planOf_commit_status hr)
  | fails => exact .inr (planOf_fail_status hr)

/-- A script with a transaction leaves its first request in the history, however its transactions go. -/
theorem launch_trace_ne (i : Instr) (c : Busy) (u : State) (b : Busy) (s : State) (h : (planOf i c u).script ≠ []) :
    (launch (planOf i c u) b s).trace ≠ s.trace := by
  obtain ⟨r, rest, hscript⟩ := List.exists_cons_of_ne_nil h
  rw [launch_cons _ b s hscript]
  obtain ⟨issued, htrace, -⟩ := pump_issuesAllowed i c u b (s.issue r) fun _ hq => hscript ▸ hq
  rw [htrace]
  simp [State.issue]

/-- The requests of the plan of a command accepted in `s`; after a failed one the rest are not issued (R203). -/
def scriptOf (i : Instr) (s : State) : List Request :=
  (planOf i (startCtx i s) (prelude i (s.begin (encode i)))).script

theorem launched_response {i : Instr} {s : State} {r : Response} (hr : (launched i s).response = some r) :
    r.status = .ok ∨ (r.status = .errBus ∧ (launched i s).trace ≠ s.trace ∧ scriptOf i s ≠ []) := by
  by_cases hscript : scriptOf i s = []
  · rw [launched, launch_nil _ _ _ hscript] at hr
    exact .inl (planOf_commit_status hr)
  · have hresult := launch_result (planOf i (startCtx i s) (prelude i (s.begin (encode i)))) (startCtx i s)
      (prelude i (s.begin (encode i)))
    have htrace := launch_trace_ne i (startCtx i s) _ (startCtx i s) (prelude i (s.begin (encode i))) hscript
    exact (hresult.status (by simp) hr).imp_right fun hbus => ⟨hbus, by simpa [launched] using htrace, hscript⟩

/-- With which status a command that the controller is ready for can be answered, and what each error needs (R204). -/
theorem exec_response {i : Instr} {s t : State} {r : Response} (hs : s.readyFor i.variant) (h : exec i s = .next t)
    (hr : t.response = some r) :
    r.status = .ok ∨ (r.status = .errDir ∧ passesCheck i s = false) ∨
      (r.status = .errBus ∧ t.trace ≠ s.trace ∧ scriptOf i s ≠ []) := by
  rw [exec_ready i s hs] at h
  injection h with h
  subst h
  cases hcheck : passesCheck i s with
  | false =>
    obtain rfl : Response.dir = r := by simpa [hcheck] using hr
    exact .inr (.inl ⟨rfl, rfl⟩)
  | true =>
    rw [hcheck, if_pos rfl] at hr
    rw [if_pos rfl]
    exact (launched_response hr).imp_right .inr

/-! ### The commands that can end with each error -/

theorem exists_of_passesCheck_false {i : Instr} {s : State} (h : passesCheck i s = false) :
    (∃ pin, i = .x16RdPin pin) ∨ ∃ pin value, i = .x16WrPin pin value := by
  cases i
  case x16RdPin pin => exact .inl ⟨pin, rfl⟩
  case x16WrPin pin value => exact .inr ⟨pin, value, rfl⟩
  all_goals simp [passesCheck] at h

theorem scriptOf_x16Cfg_noApply (flags : BitVec 96) (s : State) : scriptOf (.x16Cfg flags false) s = [] := rfl

theorem scriptOf_x16Rd_zero (s : State) : scriptOf (.x16Rd 0x0000) s = [] := rfl

theorem scriptOf_x16Wr_of_disjoint {mask : Mask16} (val : Mask16) {s : State} (h : mask &&& s.x16.outputMask = 0) :
    scriptOf (.x16Wr mask val) s = [] := by
  have hscript : scriptOf (.x16Wr mask val) s =
      wrScript (mask &&& s.x16.outputMask) (wrMerge (mask &&& s.x16.outputMask) val s.x16) s.x16 := rfl
  rw [hscript, h]
  rfl

/-- Settles O42: `exec_response`, the two commands with a check, and the three scripts without a transaction. -/
theorem statusesOfEachCommand : Obligations.StatusesOfEachCommand := by
  intro i s t r hs hexec hr
  rcases exec_response hs hexec hr with hok | ⟨hdir, hcheck⟩ | ⟨hbus, htrace, hscript⟩
  · simp [hok]
  · simpa [hdir] using exists_of_passesCheck_false hcheck
  · refine ⟨by simp [hbus], by simp [hbus], fun _ => ⟨htrace, ?_, ?_, ?_⟩⟩
    · rintro flags rfl
      exact hscript (scriptOf_x16Cfg_noApply flags s)
    · rintro rfl
      exact hscript (scriptOf_x16Rd_zero s)
    · rintro mask val rfl hdisjoint
      exact hscript (scriptOf_x16Wr_of_disjoint val hdisjoint)

end Sys2Proof.Machine
end

section
/-! PROOFS. Family `70_reset_and_hazards.md`: reset, late completions, completions that never come, and commands issued again (R230 to R249).
The handshakes read of the draws the next completion alone, so a late one in front of it shows only where no transaction takes it
(`step_behindLate`); and what they do is determined by the draws, whatever the rest of the state (`launch_course`), which compares a re-issued
command with the first one. -/

namespace Sys2Proof.Machine

/-! ### The reset input -/

/-- Settles O12: taking the reset input loads the state after reset and keeps the variant and the history. -/
theorem resetInputResetsTheController : Obligations.ResetInputResetsTheController :=
  fun s hr => ⟨applyReset s, step_of_rst hr, rfl, rfl, rfl, rfl, rfl, rfl⟩

/-! ### A completion that never comes -/

theorem nextAnswer_eq_none_of_late {as : List Answer} (h : ∀ a ∈ as, a = .late) : nextAnswer as = none :=
  (nextAnswer_eq_none_iff as).mpr fun a ha => h a ha ▸ rfl

/-- Without a completion `BUSY` goes on only to ignore the late ones at hand. -/
theorem resume_without_completion {s : State} {b : Busy} (hp : s.phase = .busy b) (hn : nextAnswer s.answers = none) :
    ∃ as, nextAnswer as = none ∧ resume b s = s.setAnswers as := by
  cases hdec : decode s.variant b.word with
  | error e => exact ⟨s.answers, hn, by simp only [resume, hdec]; rfl⟩
  | ok i =>
    rw [resume_eq_continuePlan hdec rfl rfl rfl rfl rfl, continuePlan]
    cases hleft : (planOf i b s).script.drop b.index with
    | nil => exact ⟨s.answers, hn, rfl⟩
    | cons r rest => exact ⟨[], rfl, by rw [pump_wait _ r rest b s hn, ← hp]; rfl⟩

theorem run_succ {s t : State} (n : Nat) (h : step s = .next t) :
    Host.Core.run Sys2Proof.core (n + 1) s = Host.Core.run Sys2Proof.core n t := by
  have hcore : Sys2Proof.core.step s = .next t := h
  simp only [Host.Core.run, hcore]

theorem run_without_completion {b : Busy} (n : Nat) {s : State} (hr : s.rst = false) (hp : s.phase = .busy b)
    (hn : nextAnswer s.answers = none) : ∃ as, Host.Core.run Sys2Proof.core n s = .next { s with answers := as } := by
  induction n generalizing s with
  | zero => exact ⟨s.answers, rfl⟩
  | succ n ih =>
    obtain ⟨left, hleft, hresume⟩ := resume_without_completion hp hn
    obtain ⟨as, hrun⟩ := ih (s := s.setAnswers left) hr hp hleft
    exact ⟨as, by rw [run_succ n (step_of_busy hr hp), hresume, hrun]; rfl⟩

/-- Settles O10: each step without a completion leaves a state in which none has come either; the reset input is taken first. -/
theorem busyStaysWithoutCompletion : Obligations.BusyStaysWithoutCompletion :=
  fun s _ hr hp hlate => ⟨fun n => run_without_completion n hr hp (nextAnswer_eq_none_of_late hlate),
    applyReset s.assertReset, step_of_rst rfl, rfl, rfl, rfl⟩

/-! ### A late completion -/

/-- The state with a late completion in front of its draws. -/
def State.behindLate (s : State) : State := s.setAnswers (.late :: s.answers)

@[simp] theorem State.behindLate_answers (s : State) : s.behindLate.answers = .late :: s.answers := rfl

theorem planOf_commit_behindLate (i : Instr) (c : Busy) (u : State) (bytes : List Byte) (s : State) :
    (planOf i c u).commit bytes s.behindLate = ((planOf i c u).commit bytes s).behindLate := by
  cases i <;> rfl

theorem startCtx_behindLate (i : Instr) (s : State) : startCtx i s.behindLate = startCtx i s := by
  cases i <;> rfl

theorem passesCheck_behindLate (i : Instr) (s : State) : passesCheck i s.behindLate = passesCheck i s := by
  cases i <;> rfl

theorem prelude_behindLate (i : Instr) (s : State) : prelude i s.behindLate = (prelude i s).behindLate := by
  cases i <;> rfl

theorem begin_behindLate (s : State) (w : Word) : s.behindLate.begin w = (s.begin w).behindLate := rfl

/-- A transaction in flight ignores a late completion. -/
theorem pump_behindLate (i : Instr) (c : Busy) (u : State) {rs : List Request} (b : Busy) (s : State) (h : rs ≠ []) :
    pump (planOf i c u) rs b s.behindLate = pump (planOf i c u) rs b s :=
  pump_setPhase_setAnswers i c u s.phase rs b s (.late :: s.answers) h rfl

/-- A command starts its transactions alike; without one, nothing takes the late completion. -/
theorem launch_behindLate (i : Instr) (c : Busy) (u : State) (b : Busy) (s : State) :
    launch (planOf i c u) b s.behindLate = launch (planOf i c u) b s ∨
      launch (planOf i c u) b s.behindLate = (launch (planOf i c u) b s).behindLate := by
  cases hscript : (planOf i c u).script with
  | nil =>
    rw [launch_nil _ b s hscript, launch_nil _ b _ hscript]
    exact .inr (planOf_commit_behindLate i c u _ s)
  | cons r rest =>
    rw [launch_cons _ b s hscript, launch_cons _ b _ hscript]
    exact .inl (pump_behindLate i c u b (s.issue r) (by simp))

/-- Going on in `BUSY` with a transaction in flight ignores a late completion. -/
theorem resume_behindLate_of_inFlight {s : State} {b : Busy} {i : Instr} (hdec : decode s.variant b.word = .ok i)
    (hindex : b.index < (planOf i b s).script.length) : resume b s.behindLate = resume b s := by
  have hleft : (planOf i b s).script.drop b.index ≠ [] := by simpa using hindex
  rw [resume_eq_continuePlan hdec rfl rfl rfl rfl rfl, resume_eq_continuePlan (v := s.behindLate) hdec rfl rfl rfl rfl rfl]
  exact pump_behindLate i b s b s hleft

/-- Going on in `BUSY` with nothing in flight leaves the late completion where it is. -/
theorem resume_behindLate (b : Busy) (s : State) :
    resume b s.behindLate = resume b s ∨ resume b s.behindLate = (resume b s).behindLate := by
  cases hdec : decode s.variant b.word with
  | error e =>
    have hdec' : decode s.behindLate.variant b.word = .error e := hdec
    exact .inr (by simp only [resume, hdec, hdec'])
  | ok i =>
    by_cases hindex : b.index < (planOf i b s).script.length
    · exact .inl (resume_behindLate_of_inFlight hdec hindex)
    · have hleft : (planOf i b s).script.drop b.index = [] := by simpa using hindex
      rw [resume_eq_continuePlan hdec rfl rfl rfl rfl rfl, resume_eq_continuePlan (v := s.behindLate) hdec rfl rfl rfl rfl rfl,
        continuePlan, continuePlan, hleft]
      exact .inr rfl

theorem launched_behindLate (i : Instr) (s : State) :
    launched i s.behindLate = launched i s ∨ launched i s.behindLate = (launched i s).behindLate := by
  have hplan : planOf i (startCtx i s) (prelude i (s.begin (encode i))).behindLate =
      planOf i (startCtx i s) (prelude i (s.begin (encode i))) := planOf_congr i rfl rfl rfl
  rw [launched, launched, startCtx_behindLate, begin_behindLate, prelude_behindLate, hplan]
  exact launch_behindLate i _ _ _ _

/-- The outcome of a step or a command with a late completion in front is `u` or `u` with the late completion still waiting. -/
def LeadsUpToLate (u : State) (o : Host.Outcome State Fault Refusal) : Prop := o = .next u ∨ o = .next u.behindLate

theorem exec_behindLate {i : Instr} {s u : State} (hs : s.readyFor i.variant) (h : exec i s = .next u) :
    LeadsUpToLate u (exec i s.behindLate) := by
  rw [exec_ready i s hs] at h
  injection h with h
  rw [exec_ready i s.behindLate hs, passesCheck_behindLate]
  subst h
  split
  · exact (launched_behindLate i s).imp (congrArg _) (congrArg _)
  · exact .inr rfl

/-- The reset input drops the late completion with the transaction that it abandons, and in `IDLE` leaves it. -/
theorem applyReset_behindLate (s : State) :
    applyReset s.behindLate = applyReset s ∨ applyReset s.behindLate = (applyReset s).behindLate := by
  cases hp : s.phase with
  | busy b =>
    have hanswers : answersAfterReset s.phase (.late :: s.answers) = answersAfterReset s.phase s.answers := by
      rw [hp]; rfl
    exact .inl (congrArg (applyReset s).setAnswers hanswers)
  | idle =>
    have hanswers : answersAfterReset s.phase (.late :: s.answers) = .late :: answersAfterReset s.phase s.answers := by
      rw [hp]; rfl
    exact .inr (congrArg (applyReset s).setAnswers hanswers)

theorem step_behindLate {s u : State} (h : step s = .next u) : LeadsUpToLate u (step s.behindLate) := by
  rcases step_cases h with ⟨hr, rfl⟩ | ⟨hr, b, hp, rfl⟩ | ⟨hr, hp, hc, rfl⟩ | ⟨hr, hp, w, i, hc, hdec, hexec⟩ |
    ⟨hr, hp, w, e, hc, hdec, rfl⟩
  · rw [step_of_rst (s := s.behindLate) hr]
    exact (applyReset_behindLate s).imp (congrArg _) (congrArg _)
  · rw [step_of_busy (s := s.behindLate) hr hp]
    exact (resume_behindLate b s).imp (congrArg _) (congrArg _)
  · exact .inl (step_of_noCmd (s := s.behindLate) hr hp hc)
  · rw [step_of_decoded (s := s.behindLate) hr hp hc hdec]
    exact exec_behindLate (s := s.takeCmd) ⟨hp, (variant_of_decode hdec).symm⟩ hexec
  · exact .inr (step_of_illegal (s := s.behindLate) hr hp hc hdec)

theorem step_behindLate_of_busyWf {s : State} (hr : s.rst = false) (hp : s.phase ≠ .idle) (hs : s.busyWf = true) :
    step s.behindLate = step s := by
  cases hphase : s.phase with
  | idle => exact absurd hphase hp
  | busy b =>
    rw [step_of_busy hr hphase, step_of_busy (s := s.behindLate) hr hphase]
    cases hdec : decode s.variant b.word with
    | error e => simp [State.busyWf, hphase, hdec] at hs
    | ok i =>
      obtain ⟨-, hindex, -⟩ := (busyWf_iff_of_busy hphase hdec).mp hs
      rw [resume_behindLate_of_inFlight hdec hindex]

theorem dropLate_eq_dropWhile (as : List Answer) : dropLate as = as.dropWhile (· = .late) := by
  induction as with
  | nil => rfl
  | cons a as ih =>
    cases a with
    | late => simpa [dropLate] using ih
    | ok x => simp [dropLate]
    | err e => simp [dropLate]

/-- `IDLE` drops the late completions in front of the draws, and all of them. -/
theorem dropLate_spec (as : List Answer) :
    ∃ dropped, as = dropped ++ dropLate as ∧ (∀ a ∈ dropped, a = .late) ∧ (dropLate as).head? ≠ some .late := by
  refine ⟨as.takeWhile (· = .late), ?_, fun a ha => by simpa using List.mem_takeWhile_imp ha, fun hhead => ?_⟩
  · rw [dropLate_eq_dropWhile, List.takeWhile_append_dropWhile]
  · have hnot := List.head?_dropWhile_not (fun a => decide (a = Answer.late)) as
    rw [← dropLate_eq_dropWhile, hhead] at hnot
    simp at hnot

/-- Settles O14: a transaction in flight and `IDLE` without a command both drop the late completion; elsewhere it is dropped or still waits. -/
theorem lateCompletionIsIgnored : Obligations.LateCompletionIsIgnored := by
  refine ⟨fun s as hr hp hs => ?_, fun s as hr hp hc => ⟨?_, ?_⟩, fun s as => ?_⟩
  · exact step_behindLate_of_busyWf (s := s.setAnswers as) hr hp hs
  · exact (step_of_noCmd (s := s.setAnswers (.late :: as)) hr hp hc).trans (step_of_noCmd (s := s.setAnswers as) hr hp hc).symm
  · obtain ⟨dropped, happend, hlate, hhead⟩ := dropLate_spec as
    exact ⟨dropped, dropLate as, happend, hlate, hhead, step_of_noCmd (s := s.setAnswers as) hr hp hc⟩
  · obtain ⟨u, hu⟩ := stepNeverStops (s.setAnswers as)
    rcases step_behindLate hu with ht | ht
    · exact ⟨u, u, ht, hu, .inl rfl⟩
    · exact ⟨u.behindLate, u, ht, hu, .inr rfl⟩

/-! ### `X16.CFG` issued again -/

/-- Adding the same bits again, and clearing them again, changes nothing. -/
theorem cfgClosedRegs_idem (flags : BitVec 96) (r : X16Regs) :
    cfgClosedRegs flags (cfgClosedRegs flags r) = cfgClosedRegs flags r := by
  simp only [cfgClosedRegs, BitVec.or_assoc, BitVec.or_self, BitVec.and_assoc _ (~~~_), BitVec.and_self]

/-- Settles O21: in the closed form of R109 the masks are idempotent, and the accumulators depend on `FLAGS` alone. -/
theorem repeatedCfgChangesNothing : Obligations.RepeatedCfgChangesNothing := by
  intro flags r
  rw [cfgFoldIsItsClosedForm flags r, cfgFoldIsItsClosedForm flags (cfgClosedRegs flags r), cfgClosedRegs_idem]

/-! ### What the handshakes do is determined by the draws -/

/-- Where the transactions of a plan leave the command: waiting, with every transaction completed, or with one failed. -/
inductive Course where
  | waits (c : Busy)
  | commits (bytes : List Byte)
  | fails (e : BusErr)

/-- What the plan makes of the state in which its transactions leave the command. -/
def Course.finish (p : Plan) (s : State) : Course → State
  | .waits c => s.setPhase (.busy c)
  | .commits bytes => p.commit bytes s
  | .fails e => p.fail e s

/-- The state with these requests issued and these draws left. -/
def State.onBus (s : State) (sent : List Request) (left : List Answer) : State :=
  { s with answers := left, trace := s.trace ++ sent }

theorem onBus_nil {s : State} {as : List Answer} (ha : s.answers = as) : s.onBus [] as = s := by
  simp [State.onBus, ← ha]

theorem onBus_setAnswers (s : State) (as : List Answer) (sent : List Request) (left : List Answer) :
    (s.setAnswers as).onBus sent left = s.onBus sent left := rfl

theorem onBus_issue (s : State) (r : Request) (sent : List Request) (left : List Answer) :
    (s.issue r).onBus sent left = s.onBus (r :: sent) left := by
  simp [State.onBus, State.issue]

theorem setAnswers_eq_onBus (s : State) (as : List Answer) : s.setAnswers as = s.onBus [] as := by
  simp [State.onBus, State.setAnswers]

theorem pump_course (p : Plan) :
    ∀ (rs : List Request) (b : Busy) (as : List Answer), rs ≠ [] → ∃ (course : Course) (sent : List Request) (left : List Answer),
      ∀ s : State, s.answers = as → pump p rs b s = course.finish p (s.onBus sent left)
  | [], _, _, h => absurd rfl h
  | r :: rest, b, as, _ => by
    cases hn : nextAnswer as with
    | none =>
      refine ⟨.waits b, [], [], fun s ha => ?_⟩
      rw [pump_wait p r rest b s (by rw [ha, hn]), ← setAnswers_eq_onBus]
      rfl
    | some completion =>
      obtain ⟨answer, left⟩ := completion
      cases answer with
      | error e =>
        refine ⟨.fails e, [], left, fun s ha => ?_⟩
        rw [pump_err p r rest b s (by rw [ha, hn]), setAnswers_eq_onBus]
        rfl
      | ok x =>
        cases rest with
        | nil =>
          refine ⟨.commits (b.advance r x).bytes, [], left, fun s ha => ?_⟩
          rw [pump_last p r b s (by rw [ha, hn]), setAnswers_eq_onBus]
          rfl
        | cons r' rest =>
          obtain ⟨course, sent, left', hgoesOn⟩ := pump_course p (r' :: rest) (b.advance r x) left (by simp)
          refine ⟨course, r' :: sent, left', fun s ha => ?_⟩
          rw [pump_more p r r' rest b s (by rw [ha, hn]), hgoesOn _ rfl, onBus_issue, onBus_setAnswers]

/-- From two states with the same draws the transactions of a plan issue the same requests and leave the command alike. -/
theorem launch_course (p : Plan) (b : Busy) (as : List Answer) :
    ∃ (course : Course) (sent : List Request) (left : List Answer),
      ∀ s : State, s.answers = as → launch p b s = course.finish p (s.onBus sent left) := by
  cases hscript : p.script with
  | nil => exact ⟨.commits b.bytes, [], as, fun s ha => by rw [launch_nil p b s hscript, onBus_nil ha]; rfl⟩
  | cons r rest =>
    obtain ⟨course, sent, left, hpump⟩ := pump_course p (r :: rest) b as (by simp)
    exact ⟨course, r :: sent, left, fun s ha => by rw [launch_cons p b s hscript, hpump (s.issue r) ha, onBus_issue]⟩

/-! ### `X16.WR` issued again -/

theorem launch_of_exec_x16Wr {s t : State} {mask val : Mask16} (hs : s.readyFor .x16) (h : exec (.x16Wr mask val) s = .next t) :
    launch (planX16Wr mask val s) (Busy.start (encode (.x16Wr mask val))) (s.begin (encode (.x16Wr mask val))) = t := by
  rw [exec_x16Wr hs rfl rfl] at h
  injection h

/-- Merging the same value again changes nothing (R141). -/
theorem wrMerge_idem (m val : Mask16) (r : X16Regs) :
    wrMerge m val { r with outputCache := wrMerge m val r } = wrMerge m val r := by
  apply BitVec.eq_of_getLsbD_eq
  intro i hi
  simp only [wrMerge, BitVec.getLsbD_or, BitVec.getLsbD_and, BitVec.getLsbD_not, hi, decide_true, Bool.true_and]
  cases m.getLsbD i <;> simp

/-- What a failed `X16.WR` leaves (R144): ready for a command, with `outputCache` at its old value or at the merged one. -/
structure WrFailed (mask val : Mask16) (s t : State) : Prop where
  ready : t.readyFor .x16
  cache : t.x16 = s.x16 ∨ t.x16 = { s.x16 with outputCache := wrMerge (wrMask mask s.x16) val s.x16 }

theorem wrFailed_of_errBus {mask val : Mask16} {s t : State} {e : BusErr} (hs : s.readyFor .x16)
    (hexec : exec (.x16Wr mask val) s = .next t) (hresponse : t.response = some (.bus e)) : WrFailed mask val s t := by
  have hresult := launch_result (planX16Wr mask val s) (Busy.start (encode (.x16Wr mask val))) (s.begin (encode (.x16Wr mask val)))
  rw [launch_of_exec_x16Wr hs hexec] at hresult
  cases hresult with
  | waits hu => simp [hu.response] at hresponse
  | commits => simp [planX16Wr, planMaskedWrite, Response.done, Response.bus] at hresponse
  | @fails e' u hu =>
    refine ⟨⟨rfl, hu.variant.trans hs.2⟩, ?_⟩
    simp only [planX16Wr, planMaskedWrite, failWrite, raiseBus_eq, State.endCommand_x16, State.useDraw_x16,
      State.setOutputCache_x16, hu.x16]
    split
    · exact .inr rfl
    · exact .inl rfl

theorem WrFailed.sameOffCache {mask val : Mask16} {s t : State} (h : WrFailed mask val s t) :
    ∃ v, t.x16 = { s.x16 with outputCache := v } :=
  h.cache.elim (fun hx => ⟨s.x16.outputCache, hx⟩) (fun hx => ⟨_, hx⟩)

/-- Whichever value the draw left, the command issued again has the same plan (R249). -/
theorem WrFailed.plan {mask val : Mask16} {s t : State} (h : WrFailed mask val s t) :
    planX16Wr mask val t = planX16Wr mask val s := by
  rcases h.cache with hx | hx
  · simp only [planX16Wr, hx]
  · have hmask : wrMask mask t.x16 = wrMask mask s.x16 := by rw [hx]; rfl
    have hmerge : wrMerge (wrMask mask s.x16) val t.x16 = wrMerge (wrMask mask s.x16) val s.x16 := by rw [hx, wrMerge_idem]
    rw [planX16Wr, hmask, hmerge, hx]
    rfl

section
/-! One course of a masked write, finished from two states. -/

variable (m new : Mask16) (r : X16Regs) (course : Course) (s t : State)

theorem finish_maskedWrite_trace : (course.finish (planMaskedWrite m new r) s).trace = s.trace := by
  cases course <;> rfl

theorem finish_maskedWrite_phase :
    (course.finish (planMaskedWrite m new r) s).phase = (course.finish (planMaskedWrite m new r) t).phase := by
  cases course <;> rfl

theorem finish_maskedWrite_response (h : s.response = t.response) :
    (course.finish (planMaskedWrite m new r) s).response = (course.finish (planMaskedWrite m new r) t).response := by
  cases course with
  | waits c => exact h
  | commits bytes => rfl
  | fails e => rfl

/-- Only a masked write that has completed is answered `OK`, and then `outputCache` is the merged value whatever it was. -/
theorem finish_maskedWrite_x16 {v : Mask16} (hx : t.x16 = { s.x16 with outputCache := v }) (hs : s.response = none)
    (hok : (course.finish (planMaskedWrite m new r) s).response = some (.done 0)) :
    (course.finish (planMaskedWrite m new r) s).x16 = (course.finish (planMaskedWrite m new r) t).x16 := by
  cases course with
  | waits c => simp [Course.finish, hs] at hok
  | commits bytes => simp [Course.finish, planMaskedWrite, hx]
  | fails e => simp [Course.finish, planMaskedWrite, failWrite, Response.bus, Response.done] at hok

end

/-- Settles O32: the plan is the same (`WrFailed.plan`), and so is what its transactions do with the same draws (`launch_course`). -/
theorem reissuedWrSendsTheSameBytes : Obligations.ReissuedWrSendsTheSameBytes := by
  intro s t u v mask val e as hs ht hresponse hu hv
  have hfailed := wrFailed_of_errBus hs ht hresponse
  obtain ⟨cache, hx⟩ := hfailed.sameOffCache
  obtain ⟨course, sent, left, hcourse⟩ := launch_course (planX16Wr mask val s) (Busy.start (encode (.x16Wr mask val))) as
  have hlaunchU := launch_of_exec_x16Wr (s := s.setAnswers as) hs hu
  have hlaunchV := launch_of_exec_x16Wr (s := t.setAnswers as) hfailed.ready hv
  have hplan : planX16Wr mask val (t.setAnswers as) = planX16Wr mask val s := hfailed.plan
  rw [hplan] at hlaunchV
  obtain rfl := (hcourse _ rfl).symm.trans hlaunchU
  obtain rfl := (hcourse _ rfl).symm.trans hlaunchV
  exact ⟨⟨sent, finish_maskedWrite_trace _ _ _ course _, finish_maskedWrite_trace _ _ _ course _⟩,
    finish_maskedWrite_phase _ _ _ course _ _, finish_maskedWrite_response _ _ _ course _ _ rfl,
    finish_maskedWrite_x16 _ _ _ course _ _ hx rfl⟩

end Sys2Proof.Machine
end
